-- ==== Sys2Proof/Word.lean ====
section
/-! DEFINITION. The widths of the block (R9, R68): every other file speaks of words through these names. -/

namespace Sys2Proof

/-- A CSR, a host data word, a downstream address or a downstream data word: 32 bits (R9). -/
abbrev Word := BitVec 32

/-- One byte of the host window in its little-endian numbering (R49). -/
abbrev Byte := BitVec 8

/-- A host byte offset: 13 bits, an 8 KiB window (R9, R47). -/
abbrev Offset := BitVec 13

/-- A pixel RAM entry: red in [23:16], green in [15:8], blue in [7:0] (R41). -/
abbrev Pixel := BitVec 24

/-- The 2-bit code of a protocol symbol (R72). -/
abbrev SymCode := BitVec 2

/-- One host access, `{h_write, h_addr[12:0], h_wdata[31:0]}` (R71). -/
abbrev AccessWord := BitVec 46

end Sys2Proof
end

