-- ==== Sys2Proof/Config.lean ====
section
/-! DEFINITION. What the build fixes (the three parameters of R9) and the free values: draws of the downstream device
and of the pixel RAM at power-up, which nothing in the model constrains. -/

namespace Sys2Proof

/-- The implementation parameters of R9. The machine carries them in its state (`State.params`), so that a statement
about every state is a statement about every build. -/
structure Params where
  /-- `MAX_LEDS`: pixel RAM entries. -/
  maxLeds : Nat
  /-- `CLK_HZ`: frequency of `clk`. -/
  clkHz : Nat
  /-- `PWM_CLK_HZ`: frequency of the PWM channel's counter clock. -/
  pwmClkHz : Nat
  deriving DecidableEq, Repr

/-- The legal ranges of R9. -/
abbrev Params.legal (p : Params) : Prop :=
  (1 ≤ p.maxLeds ∧ p.maxLeds ≤ 1024) ∧ (1 ≤ p.clkHz ∧ p.clkHz ≤ 1000000000) ∧
    (1 ≤ p.pwmClkHz ∧ p.pwmClkHz ≤ 1000000000)

/-- DESIGN CHOICE (log 5): the build `State.reset` is written with. The spec leaves all three open (D7, D13, D14);
these are the parameters of its own test programs (95_test_vectors.md, L3). No statement rests on them. -/
def Config.build : Params := { maxLeds := 64, clkHz := 100000000, pwmClkHz := 24000000 }

/-- Free value (R42, log 4): the u24 that pixel RAM entry `i` holds from power-up until a host write sets it. -/
opaque Config.pixPowerUp : Nat → Pixel

/-- Free value (R54, R140, log 3): whether the downstream device asserts `d_ack` in cycle `n`. It may be false for ever. -/
opaque Config.dsAck : Nat → Bool

/-- Free value (R54, log 3): `d_rdata` in cycle `n`. -/
opaque Config.dsRdata : Nat → Word

/-- Free value (R55, log 3): `d_err` in cycle `n`. -/
opaque Config.dsErr : Nat → Bool

end Sys2Proof
end

