-- ==== Sys2Proof/Syntax.lean ====
section
/-! DEFINITION. The instructions: one constructor per row of spec/opcode_table.json (R68 to R74). -/

namespace Sys2Proof

/-- The operations of the block. A command (`cmd…`) is a host write of its word to CMD (R70), a symbol (`sym…`) is what
the Frame Encoder hands the Waveform Translator at the start of a slot (R72), an access (`host…`) is one word on the host
port (R71). -/
inductive Instr where
  /-- NOP, CMD word 0x0. -/
  | cmdNop
  /-- OPEN, CMD word 0x1. -/
  | cmdOpen
  /-- SET_PERIOD, CMD word 0x2. -/
  | cmdSetPeriod
  /-- TRANSMIT, CMD word 0x3. -/
  | cmdTransmit
  /-- CLOSE, CMD word 0x4. -/
  | cmdClose
  /-- RELEASE, CMD word 0x5. -/
  | cmdRelease
  /-- Any other CMD word (R74): OPCODE 0x6 to 0xF, or a bit of [31:4] set. -/
  | cmdReserved (word : Word)
  /-- ZERO, symbol code 0b00. -/
  | symZero
  /-- ONE, symbol code 0b01. -/
  | symOne
  /-- RESET, symbol code 0b10. -/
  | symReset
  /-- Symbol code 0b11, which no rule produces (R74). -/
  | symReserved
  /-- HostRead(off), `h_write` = 0 (R125). -/
  | hostRead (off : Offset)
  /-- HostWrite(off, data), `h_write` = 1 (R126). -/
  | hostWrite (off : Offset) (data : Word)
  deriving DecidableEq, Repr

/-- The three encoded formats an instruction can have (R68). -/
inductive Format where
  | symbol
  | cmd
  | hostAcc
  deriving DecidableEq, Repr

/-- The format a table row gives its instruction. -/
def Instr.format : Instr → Format
  | .cmdNop | .cmdOpen | .cmdSetPeriod | .cmdTransmit | .cmdClose | .cmdRelease | .cmdReserved _ => .cmd
  | .symZero | .symOne | .symReset | .symReserved => .symbol
  | .hostRead _ | .hostWrite _ _ => .hostAcc

end Sys2Proof
end

