-- ==== Sys2Proof/Machine/State.lean ====
section
/-! DEFINITION. The machine's state as plain data: every CSR and sequencer field of 10_state.md, pixel RAM, and the
model's own fields (what the host and the device will do, and what the block has shown them). -/

namespace Sys2Proof.Machine

/-- BackendState (R24). -/
inductive Backend where
  | uninitialized
  | enabled
  | transmitting
  | disabled
  deriving DecidableEq, Repr

/-- The CSRs by name (R19). -/
inductive Csr where
  | id | param | ctrl | status | irqEn | cmd | lastErr
  | ledCount | windowBits | t0h | t0l | t1h | t1l | resetLow | periodNs
  | pwmBase | pwmSize | pwmOffs | pwmFeat | pwmEnMask
  | frameCnt | pulsesDone | frameLen | rbDuty
  deriving DecidableEq, Repr

/-- What a host offset reaches (R47). -/
inductive Target where
  | csr (r : Csr)
  | pixel (i : Nat)
  | unmapped
  deriving DecidableEq, Repr

/-- The errors of R134. -/
inductive ErrCode where
  | addrErr | illCmd | cmdBusy | stateErr | cfgErr | mapFail | busyWerr | periodErr | overrun | rbMismatch
  deriving DecidableEq, Repr

/-- The protocol symbols (R72). -/
inductive Symbol where
  | zero
  | one
  | reset
  deriving DecidableEq, Repr

/-- PULSE (R68): a high time and a low time in nanoseconds. -/
structure Pulse where
  high : Word
  low : Word
  deriving DecidableEq, Repr

/-- `seq.phase` (R44). -/
inductive Phase where
  | idle
  | setp
  | pro
  | slot
  deriving DecidableEq, Repr

/-- The operation tags of R93. -/
inductive Op where
  | wrPeriod
  | rdCtrl
  | wrCtrlEn
  | wrCtrlLock
  | wrDuty
  | rdDuty
  | wrCtrlUnlock
  deriving DecidableEq, Repr

/-- What the sequencer drives on the downstream port in a cycle: `d_write`, `d_addr`, `d_wdata` (R54). -/
inductive DsReq where
  | read (addr : Word)
  | write (addr data : Word)
  deriving DecidableEq, Repr

/-- A completed downstream transaction (R7): the cycle in which the device acknowledged it, its kind, address, and the
data written or read. -/
structure DsTxn where
  cycle : Nat
  write : Bool
  addr : Word
  data : Word
  deriving DecidableEq, Repr

/-- One cycle of the host's pins: `rst` and at most one access (R48, R149). -/
structure HostIn where
  rst : Bool
  acc : Option AccessWord
  deriving DecidableEq, Repr

/-- One cycle of the downstream device's pins (R54, R55). -/
structure DsIn where
  ack : Bool
  rdata : Word
  err : Bool
  deriving DecidableEq, Repr

/-- The response of a host access: `h_err`, and `h_rdata` where the spec gives it a value (R48, log 8). -/
structure HostResp where
  err : Bool
  rdata : Option Word
  deriving DecidableEq, Repr

/-- The frame group's registers (R22, R28 to R31). -/
structure FrameRegs where
  /-- CTRL: READBACK in bit 0. -/
  ctrl : Word
  /-- LED_COUNT: L. -/
  ledCount : Word
  /-- WINDOW_BITS: W. -/
  windowBits : Word
  /-- T0H_NS. -/
  t0h : Word
  /-- T0L_NS. -/
  t0l : Word
  /-- T1H_NS. -/
  t1h : Word
  /-- T1L_NS. -/
  t1l : Word
  /-- RESET_LOW_NS. -/
  resetLow : Word
  /-- PERIOD_NS. -/
  periodNs : Word
  deriving DecidableEq, Repr

/-- The map group's registers (R32 to R36). -/
structure MapRegs where
  /-- PWM_BASE. -/
  base : Word
  /-- PWM_SIZE. -/
  size : Word
  /-- PWM_OFFS: PERIOD_OFF [7:0], DUTY_OFF [15:8], CTRL_OFF [23:16]. -/
  offs : Word
  /-- PWM_FEAT: LOCK_BIT [4:0], LOCK_SUP [8]. -/
  feat : Word
  /-- PWM_EN_MASK. -/
  enMask : Word
  deriving DecidableEq, Repr

/-- The hidden sequencer state (R44). -/
structure Seq where
  phase : Phase
  /-- `seq.blank`: the frame encodes every pixel as black. -/
  blank : Bool
  /-- `seq.final`: STATE becomes DISABLED at the frame's end. -/
  final : Bool
  /-- `seq.ops`: the operations of the phase not yet completed. -/
  ops : List Op
  /-- `seq.hc`: cycles elapsed in the slot. -/
  hc : Nat
  /-- `seq.hold`: the slot's hold length in cycles. -/
  hold : Nat
  /-- `seq.cval`: the ctrl value last read. -/
  cval : Word
  /-- `seq.wduty`: the slot's duty value. -/
  wduty : Word
  /-- `rel_pend`, mirrored as STATUS.REL_PEND. -/
  relPend : Bool
  /-- `period_valid`, mirrored as STATUS.PERIOD_VALID. -/
  periodValid : Bool
  deriving DecidableEq, Repr

/-- The whole machine. ID, PARAM and CMD have no storage (R20, R21, R26); STATUS is read from `backend`, `seq` and
`flags` (R23). -/
structure State where
  /-- The build (R9); no step writes it. -/
  params : Params
  /-- STATUS.STATE (R24). -/
  backend : Backend
  /-- The W1C bits of STATUS at their own positions: DONE 8, the error flags 25:16 (R23). -/
  flags : Word
  /-- IRQ_EN (R25). -/
  irqEn : Word
  /-- LAST_ERR.CODE (R27). -/
  lastErr : BitVec 4
  /-- The frame group's registers. -/
  frameRegs : FrameRegs
  /-- The map group's registers. -/
  mapRegs : MapRegs
  /-- FRAME_CNT (R37). -/
  frameCnt : Word
  /-- PULSES_DONE (R38). -/
  pulsesDone : Word
  /-- FRAME_LEN (R39). -/
  frameLen : Word
  /-- RB_DUTY (R40). -/
  rbDuty : Word
  /-- Pixel RAM: the bytes a host write has set, by host byte offset, rising (R41, R49). A byte not listed still holds
  its power-up draw (R42, log 4). -/
  pix : List Host.Cell
  /-- The hidden sequencer state. -/
  seq : Seq
  /-- The model's own: the response to the host access of the cycle just ended (log 8). -/
  resp : Option HostResp
  /-- The model's own: completed downstream transactions, newest first (log 7). -/
  trace : List DsTxn
  /-- The model's own: the number of the current cycle, the argument of the free values (log 3). -/
  cycle : Nat
  /-- The model's own: the host's pins in this cycle and the following ones; idle when it runs out (log 2). -/
  hostIn : List HostIn
  /-- The model's own: the device's pins in this cycle and the following ones; free values when it runs out (log 3). -/
  dsIn : List DsIn
  /-- The model's own: a symbol code forced onto the wire between Frame Encoder and Waveform Translator; `none` in
  every run from reset (log 6). -/
  symbolWire : Option SymCode
  deriving DecidableEq, Repr

/-- Reasons the machine stops with a fault. -/
inductive Fault where
  /-- Symbol code 0b11 was handed to the Waveform Translator. Raised by the meaning of SYMBOL_RESERVED and by a slot
  start that finds that code on the symbol wire. No rule produces the code, and the spec calls translating it a fault of
  the model, never a pulse (R74). Safe: no claim about a run holds by it. -/
  | reservedSymbol
  deriving DecidableEq, Repr

/-- Reasons the model gives an instruction no meaning. -/
inductive Refusal where
  /-- Raised by a refused arm of `exec` only: an instruction without a meaning yet. Safe. -/
  | notModelled (mnemonic : String)
  deriving DecidableEq, Repr

/-- What one step answers. -/
abbrev Out := Host.Outcome State Fault Refusal

/-- Reset values of the frame group (R19). -/
def FrameRegs.zeros : FrameRegs :=
  { ctrl := 0#32, ledCount := 0#32, windowBits := 0#32, t0h := 0#32, t0l := 0#32, t1h := 0#32, t1l := 0#32,
    resetLow := 0#32, periodNs := 0#32 }

/-- Reset values of the map group (R19). -/
def MapRegs.zeros : MapRegs := { base := 0#32, size := 0#32, offs := 0#32, feat := 0#32, enMask := 0#32 }

/-- Reset values of the sequencer (R44). -/
def Seq.zeros : Seq :=
  { phase := .idle, blank := false, final := false, ops := [], hc := 0, hold := 0, cval := 0#32, wduty := 0#32,
    relPend := false, periodValid := false }

/-- The reset state of a build (R46, R149, R150): every CSR and sequencer field at its reset value, every pixel RAM entry
at its power-up draw, no access and no device input waiting. -/
def State.resetWith (p : Params) : State :=
  { params := p, backend := .uninitialized, flags := 0#32, irqEn := 0#32, lastErr := 0#4,
    frameRegs := FrameRegs.zeros, mapRegs := MapRegs.zeros,
    frameCnt := 0#32, pulsesDone := 0#32, frameLen := 0#32, rbDuty := 0#32,
    pix := [], seq := Seq.zeros, resp := none, trace := [], cycle := 0, hostIn := [], dsIn := [], symbolWire := none }

/-- The machine right after reset, on the build of `Config.build` (log 5). -/
def State.reset : State := State.resetWith Config.build

end Sys2Proof.Machine
end

