-- ==== Sys2Proof/Machine/Color.lean ====
section
/-! DEFINITION. The Color Model: color reorder and bit serializer (R78 to R81). -/

namespace Sys2Proof.Machine

/-- Red of a pixel entry (R41, R73). -/
def red (p : Pixel) : Byte := p.extractLsb' 16 8

/-- Green of a pixel entry. -/
def green (p : Pixel) : Byte := p.extractLsb' 8 8

/-- Blue of a pixel entry. -/
def blue (p : Pixel) : Byte := p.extractLsb' 0 8

/-- Color reorder: green, red, blue from the highest byte down (R78). -/
def grb (p : Pixel) : BitVec 24 := green p ++ red p ++ blue p

/-- One protocol bit as a symbol. -/
def bitSymbol (b : Bool) : Symbol := if b then .one else .zero

/-- `encode(p)[j]`: most significant bit first (R79). -/
def encodeBit (p : Pixel) (j : Nat) : Symbol := bitSymbol ((grb p).getLsbD (23 - j))

/-- The bit serializer: 24 protocol bits (R79). -/
def encodePixel (p : Pixel) : List Symbol := (List.range 24).map (encodeBit p)

/-- `val` of R80. -/
def symbolVal : Symbol → Nat
  | .one => 1
  | _ => 0

/-- The number eight symbols spell, first symbol most significant (R80). -/
def byteOfSymbols (ss : List Symbol) : Byte :=
  BitVec.ofNat 8 (ss.foldl (fun n y => 2 * n + symbolVal y) 0)

/-- Decoding of R80: green from symbols 0 to 7, red from 8 to 15, blue from 16 to 23; back in pixel RAM's order. -/
def decodePixel (ss : List Symbol) : Pixel :=
  byteOfSymbols ((ss.drop 8).take 8) ++ byteOfSymbols (ss.take 8) ++ byteOfSymbols ((ss.drop 16).take 8)

end Sys2Proof.Machine
end

