-- ==== Sys2Proof/Machine/Flags.lean ====
section
/-! DEFINITION. STATUS and its flags: positions, the per-cycle update, LAST_ERR and the interrupt (R23, R133 to R136,
R141). -/

namespace Sys2Proof.Machine

/-- The W1C bits of STATUS, which are also the implemented bits of IRQ_EN: 8 and 25:16 (R23, R25, R128). -/
def w1cMask : Word := 0x03FF0100#32

/-- STATUS.DONE, bit 8 (R23). -/
def doneFlag : Word := 0x00000100#32

/-- The codes of R134. -/
def ErrCode.code : ErrCode → Nat
  | .addrErr => 1
  | .illCmd => 2
  | .cmdBusy => 3
  | .stateErr => 4
  | .cfgErr => 5
  | .mapFail => 6
  | .busyWerr => 7
  | .periodErr => 8
  | .overrun => 9
  | .rbMismatch => 10

/-- STATUS bit 15 + c of the error of code c (R133). -/
def ErrCode.flag (e : ErrCode) : Word := 1#32 <<< (15 + e.code)

/-- STATUS.STATE (R24). -/
def Backend.code : Backend → Word
  | .uninitialized => 0#32
  | .enabled => 1#32
  | .transmitting => 2#32
  | .disabled => 3#32

/-- One bit at a position. -/
def bitAt (b : Bool) (n : Nat) : Word := if b then 1#32 <<< n else 0#32

/-- STATUS.BUSY (R44). -/
def State.busy (s : State) : Bool := decide (s.seq.phase ≠ .idle) || s.seq.relPend

/-- STATUS as a host read returns it (R23). -/
def statusWord (s : State) : Word :=
  s.backend.code ||| bitAt s.busy 2 ||| bitAt s.seq.relPend 3 ||| bitAt s.seq.periodValid 4 ||| (s.flags &&& w1cMask)

/-- `raise E` by a host access (R133): the flag is set and LAST_ERR takes the code. -/
def raiseHost (e : ErrCode) (s : State) : State :=
  { s with flags := s.flags ||| e.flag, lastErr := BitVec.ofNat 4 e.code }

/-- Whether the host access of this cycle was rejected, that is, raised an error (R124). -/
def hostErred (h : State) : Bool :=
  match h.resp with
  | some r => r.err
  | none => false

/-- `raise E` by the sequencer onto the edge `h` that already holds the host's effects (R135, R136): a set beats a clear
of the same cycle, and LAST_ERR keeps a code the host raised. -/
def raiseSeq (e : ErrCode) (h : State) : State :=
  { h with flags := h.flags ||| e.flag,
           lastErr := if hostErred h then h.lastErr else BitVec.ofNat 4 e.code }

/-- A write of STATUS clears the W1C bits written as 1 (R128). -/
def clearFlags (data : Word) (s : State) : State :=
  { s with flags := s.flags &&& ~~~(data &&& w1cMask) }

/-- The interrupt output (R141). -/
def State.irq (s : State) : Bool := decide (s.flags &&& s.irqEn &&& w1cMask ≠ 0#32)

end Sys2Proof.Machine
end

