-- ==== Sys2Proof/Machine/Operands.lean ====
section
/-! DEFINITION. Operand assembly (R73): the natural numbers, addresses, masks and checks that commands and the sequencer
take from the CSRs, and the unit conversions of 42_waveform_translator.md. -/

namespace Sys2Proof.Machine

/-- `ceil_div` (R11), for b ≥ 1. -/
def ceilDiv (a b : Nat) : Nat := (a + b - 1) / b

/-- L (R73). -/
def FrameRegs.leds (f : FrameRegs) : Nat := f.ledCount.toNat

/-- W (R73). -/
def FrameRegs.window (f : FrameRegs) : Nat := f.windowBits.toNat

/-- CTRL.READBACK, bit 0 (R22). -/
def FrameRegs.readback (f : FrameRegs) : Bool := f.ctrl.getLsbD 0

/-- PERIOD_OFF, zero-extended (R34, R73). -/
def MapRegs.periodOff (m : MapRegs) : Nat := (m.offs.extractLsb' 0 8).toNat

/-- DUTY_OFF (R34, R73). -/
def MapRegs.dutyOff (m : MapRegs) : Nat := (m.offs.extractLsb' 8 8).toNat

/-- CTRL_OFF (R34, R73). -/
def MapRegs.ctrlOff (m : MapRegs) : Nat := (m.offs.extractLsb' 16 8).toNat

/-- A_PERIOD (R53). -/
def MapRegs.aPeriod (m : MapRegs) : Word := m.base + BitVec.ofNat 32 m.periodOff

/-- A_DUTY (R53). -/
def MapRegs.aDuty (m : MapRegs) : Word := m.base + BitVec.ofNat 32 m.dutyOff

/-- A_CTRL (R53). -/
def MapRegs.aCtrl (m : MapRegs) : Word := m.base + BitVec.ofNat 32 m.ctrlOff

/-- PWM_FEAT.LOCK_SUP, bit 8 (R35). -/
def MapRegs.lockSup (m : MapRegs) : Bool := m.feat.getLsbD 8

/-- PWM_FEAT.LOCK_BIT, bits 4:0 (R35). -/
def MapRegs.lockBit (m : MapRegs) : Nat := (m.feat.extractLsb' 0 5).toNat

/-- The lock mask (R73, R93). -/
def MapRegs.lockMask (m : MapRegs) : Word := 1#32 <<< m.lockBit

/-- One offset of the map is aligned and inside the region (R113). -/
def MapRegs.offOk (m : MapRegs) (off : Nat) : Bool := decide (off % 4 = 0 ∧ off + 4 ≤ m.size.toNat)

/-- `map_ok` (R113). -/
def MapRegs.ok (m : MapRegs) : Bool :=
  decide (m.size.toNat ≠ 0 ∧ m.base.toNat % 4 = 0 ∧ m.base.toNat + m.size.toNat ≤ 2 ^ 32) &&
    (m.offOk m.periodOff && m.offOk m.dutyOff && m.offOk m.ctrlOff) &&
    decide (m.periodOff ≠ m.dutyOff ∧ m.periodOff ≠ m.ctrlOff ∧ m.dutyOff ≠ m.ctrlOff)

/-- `cfg_ok` (R116). -/
def cfgOk (p : Params) (f : FrameRegs) : Bool := decide (1 ≤ f.window ∧ f.leds ≤ p.maxLeds)

/-- `to_cycles(ns)` (R89). -/
def toCycles (p : Params) (ns : Nat) : Nat := ceilDiv (ns * p.clkHz) 1000000000

/-- `to_counts(ns)` (R90): nearest, half up. -/
def toCounts (p : Params) (ns : Nat) : Nat := (ns * p.pwmClkHz + 500000000) / 1000000000

end Sys2Proof.Machine
end

