-- ==== Sys2Proof/Machine/Ops.lean ====
section
/-! DEFINITION. The named operations over memory, registers and the host port: pixel RAM, the CSR table, accepting and
rejecting an access, and reset. Rejecting an access is the block's one form of error entry, and no return from it
exists (R138, R139). -/

namespace Sys2Proof.Machine

/-! Pixel RAM (R41, R42, R49). -/

/-- The bytes set by host writes are listed by strictly rising offset. A listed byte never reads as an unlisted one does:
an unlisted byte is a power-up draw, which has no written value (log 4). -/
def Memory.wf : List Host.Cell → Bool
  | [] => true
  | [_] => true
  | c :: d :: m => decide (c.1 < d.1) && Memory.wf (d :: m)

/-- The value a host write has set at a byte offset, if any. -/
def Memory.lookup (a : Nat) : List Host.Cell → Option Byte
  | [] => none
  | c :: m => if c.1 = a then some c.2 else Memory.lookup a m

/-- Set the byte at an offset, keeping the list rising. -/
def Memory.write (a : Nat) (b : Byte) : List Host.Cell → List Host.Cell
  | [] => [(a, b)]
  | c :: m =>
    if a < c.1 then (a, b) :: c :: m
    else if a = c.1 then (a, b) :: m
    else c :: Memory.write a b m

/-- Host byte offset of pixel RAM (R41, R47). -/
def pixBase : Nat := 0x1000

/-- Host byte offset of entry `i` (R41). -/
def pixAddr (i : Nat) : Nat := pixBase + 4 * i

/-- What a byte of pixel RAM no host write has set reads as: its part of the entry's power-up draw (R42), and 0 in the
res0 byte (R41). -/
def powerUpByte (a : Nat) : Byte :=
  match (a - pixBase) % 4 with
  | 0 => (Config.pixPowerUp ((a - pixBase) / 4)).extractLsb' 0 8
  | 1 => (Config.pixPowerUp ((a - pixBase) / 4)).extractLsb' 8 8
  | 2 => (Config.pixPowerUp ((a - pixBase) / 4)).extractLsb' 16 8
  | _ => 0#8

/-- One byte of pixel RAM by host byte offset (R49). -/
def readByte (s : State) (a : Nat) : Byte :=
  match Memory.lookup a s.pix with
  | some b => b
  | none => powerUpByte a

/-- `pix[i]` (R12): red, green, blue from the highest byte down (R41). -/
def readPixel (s : State) (i : Nat) : Pixel :=
  readByte s (pixAddr i + 2) ++ readByte s (pixAddr i + 1) ++ readByte s (pixAddr i)

/-- `pix[i] <- v` (R12): blue at the lowest byte offset (R49). -/
def writePixel (i : Nat) (v : Pixel) (s : State) : State :=
  { s with
    pix := Memory.write (pixAddr i + 2) (v.extractLsb' 16 8)
      (Memory.write (pixAddr i + 1) (v.extractLsb' 8 8) (Memory.write (pixAddr i) (v.extractLsb' 0 8) s.pix)) }

/-! The CSR table (R19) and the host window (R47). -/

/-- The offset of a CSR (R19). -/
def Csr.offset : Csr → Offset
  | .id => 0x000#13
  | .param => 0x004#13
  | .ctrl => 0x008#13
  | .status => 0x00C#13
  | .irqEn => 0x010#13
  | .cmd => 0x014#13
  | .lastErr => 0x018#13
  | .ledCount => 0x020#13
  | .windowBits => 0x024#13
  | .t0h => 0x028#13
  | .t0l => 0x02C#13
  | .t1h => 0x030#13
  | .t1l => 0x034#13
  | .resetLow => 0x038#13
  | .periodNs => 0x03C#13
  | .pwmBase => 0x040#13
  | .pwmSize => 0x044#13
  | .pwmOffs => 0x048#13
  | .pwmFeat => 0x04C#13
  | .pwmEnMask => 0x050#13
  | .frameCnt => 0x060#13
  | .pulsesDone => 0x064#13
  | .frameLen => 0x068#13
  | .rbDuty => 0x06C#13

/-- Every CSR of R19. -/
def Csr.all : List Csr :=
  [.id, .param, .ctrl, .status, .irqEn, .cmd, .lastErr, .ledCount, .windowBits, .t0h, .t0l, .t1h] ++
    [.t1l, .resetLow, .periodNs, .pwmBase, .pwmSize, .pwmOffs, .pwmFeat, .pwmEnMask, .frameCnt, .pulsesDone,
      .frameLen, .rbDuty]

/-- The CSR at an offset, if one is there (R19). -/
def csrAt (off : Offset) : Option Csr := Csr.all.find? (fun r => decide (r.offset = off))

/-- What a word-aligned offset reaches (R47). -/
def targetOf (p : Params) (off : Offset) : Target :=
  match csrAt off with
  | some r => .csr r
  | none =>
    if pixBase ≤ off.toNat ∧ off.toNat < pixBase + 4 * p.maxLeds then .pixel ((off.toNat - pixBase) / 4)
    else .unmapped

/-- The mask of an accepted store (R132), which is also what is not res0 in the register. -/
def Csr.mask : Csr → Word
  | .ctrl => 0x00000001#32
  | .irqEn => 0x03FF0100#32
  | .pwmOffs => 0x00FFFFFF#32
  | .pwmFeat => 0x0000011F#32
  | _ => 0xFFFFFFFF#32

/-- The frame group of CSRs (10_state.md section 2, R131). -/
def Csr.inFrameGroup : Csr → Bool
  | .ctrl | .ledCount | .windowBits | .t0h | .t0l | .t1h | .t1l | .resetLow | .periodNs => true
  | _ => false

/-- The map group (10_state.md section 2, R130). -/
def Csr.inMapGroup : Csr → Bool
  | .pwmBase | .pwmSize | .pwmOffs | .pwmFeat | .pwmEnMask => true
  | _ => false

/-- The registers a host write of which is rejected with ADDR_ERR (R126 step 2). -/
def Csr.readOnly : Csr → Bool
  | .id | .param | .lastErr | .frameCnt | .pulsesDone | .frameLen | .rbDuty => true
  | _ => false

/-- The value a host read of a CSR returns, res0 bits as 0 (R20 to R40, R125). -/
def readCsr (s : State) : Csr → Word
  | .id => 0x4C504245#32
  | .param => 0x01000000#32 ||| BitVec.ofNat 32 (s.params.maxLeds % 2 ^ 16)
  | .ctrl => s.frameRegs.ctrl &&& Csr.ctrl.mask
  | .status => statusWord s
  | .irqEn => s.irqEn &&& Csr.irqEn.mask
  | .cmd => 0#32
  | .lastErr => s.lastErr.zeroExtend 32
  | .ledCount => s.frameRegs.ledCount
  | .windowBits => s.frameRegs.windowBits
  | .t0h => s.frameRegs.t0h
  | .t0l => s.frameRegs.t0l
  | .t1h => s.frameRegs.t1h
  | .t1l => s.frameRegs.t1l
  | .resetLow => s.frameRegs.resetLow
  | .periodNs => s.frameRegs.periodNs
  | .pwmBase => s.mapRegs.base
  | .pwmSize => s.mapRegs.size
  | .pwmOffs => s.mapRegs.offs &&& Csr.pwmOffs.mask
  | .pwmFeat => s.mapRegs.feat &&& Csr.pwmFeat.mask
  | .pwmEnMask => s.mapRegs.enMask
  | .frameCnt => s.frameCnt
  | .pulsesDone => s.pulsesDone
  | .frameLen => s.frameLen
  | .rbDuty => s.rbDuty

/-- An accepted store: `data & mask` into a register of the frame or map group or IRQ_EN (R132). The other registers have
no store: they are read-only, or a write of them does something else (R126). -/
def storeCsr (r : Csr) (data : Word) (s : State) : State :=
  match r with
  | .ctrl => { s with frameRegs := { s.frameRegs with ctrl := data &&& r.mask } }
  | .irqEn => { s with irqEn := data &&& r.mask }
  | .ledCount => { s with frameRegs := { s.frameRegs with ledCount := data &&& r.mask } }
  | .windowBits => { s with frameRegs := { s.frameRegs with windowBits := data &&& r.mask } }
  | .t0h => { s with frameRegs := { s.frameRegs with t0h := data &&& r.mask } }
  | .t0l => { s with frameRegs := { s.frameRegs with t0l := data &&& r.mask } }
  | .t1h => { s with frameRegs := { s.frameRegs with t1h := data &&& r.mask } }
  | .t1l => { s with frameRegs := { s.frameRegs with t1l := data &&& r.mask } }
  | .resetLow => { s with frameRegs := { s.frameRegs with resetLow := data &&& r.mask } }
  | .periodNs => { s with frameRegs := { s.frameRegs with periodNs := data &&& r.mask } }
  | .pwmBase => { s with mapRegs := { s.mapRegs with base := data &&& r.mask } }
  | .pwmSize => { s with mapRegs := { s.mapRegs with size := data &&& r.mask } }
  | .pwmOffs => { s with mapRegs := { s.mapRegs with offs := data &&& r.mask } }
  | .pwmFeat => { s with mapRegs := { s.mapRegs with feat := data &&& r.mask } }
  | .pwmEnMask => { s with mapRegs := { s.mapRegs with enMask := data &&& r.mask } }
  | .id | .param | .status | .cmd | .lastErr | .frameCnt | .pulsesDone | .frameLen | .rbDuty => s

/-! Accepting and rejecting a host access (R124). -/

/-- An accepted write answers OKAY. -/
def acceptWrite (s : State) : State := { s with resp := some { err := false, rdata := none } }

/-- An accepted read answers OKAY and the value. -/
def acceptRead (v : Word) (s : State) : State := { s with resp := some { err := false, rdata := some v } }

/-- A rejected write answers ERROR; nothing changes but the error it raises. -/
def rejectWrite (e : ErrCode) (s : State) : State :=
  { raiseHost e s with resp := some { err := true, rdata := none } }

/-- A rejected read answers ERROR with data 0; nothing changes but the error it raises. -/
def rejectRead (e : ErrCode) (s : State) : State :=
  { raiseHost e s with resp := some { err := true, rdata := some 0#32 } }

/-! Reset (R149). -/

/-- The edge at which `rst` = 1: every CSR and sequencer field takes its reset value, pixel RAM keeps its contents, and a
host access of the cycle has no effect and answers OKAY with data 0. What the model records of the outside stays. -/
def rstEdge (acc : Option AccessWord) (s : State) : State :=
  { State.resetWith s.params with
    pix := s.pix
    resp := match acc with
      | some _ => some { err := false, rdata := some 0#32 }
      | none => none
    trace := s.trace
    cycle := s.cycle
    hostIn := s.hostIn
    dsIn := s.dsIn }

end Sys2Proof.Machine
end

