-- ==== Sys2Proof/Machine/FrameEncoder.lean ====
section
/-! DEFINITION. The Frame Encoder (R82 to R87): the bit sequence, the reset-gap inserter, the frame's length, and the
symbol of one slot in closed form. -/

namespace Sys2Proof.Machine

/-- `px(i)` (R82): black in a blanking frame. -/
def framePixel (s : State) (i : Nat) : Pixel := if s.seq.blank then 0#24 else readPixel s i

/-- `bits(L, blank)` (R82), over the pixel of each position. -/
def frameBits (px : Nat → Pixel) (leds : Nat) : List Symbol :=
  (List.range leds).flatMap (fun i => encodePixel (px i))

/-- The loop of R83, from the window count `cnt` on: the symbols it appends for the bits left, the final RESET of an
open window included. -/
def insertResets (w : Nat) : Nat → List Symbol → List Symbol
  | cnt, [] => if cnt ≠ 0 then [.reset] else []
  | cnt, b :: bs => if cnt + 1 = w then b :: .reset :: insertResets w 0 bs else b :: insertResets w (cnt + 1) bs

/-- `frame(L, W, blank)` (R83), for W ≥ 1. -/
def frameSymbols (px : Nat → Pixel) (leds w : Nat) : List Symbol :=
  if leds = 0 then [.reset] else insertResets w 0 (frameBits px leds)

/-- `frame_len(L, W)` (R84), for W ≥ 1. -/
def frameLength (leds w : Nat) : Nat := 24 * leds + max 1 (ceilDiv (24 * leds) w)

/-- `frame_sym(k)` in the closed form of R85, for W ≥ 1. -/
def frameSym (px : Nat → Pixel) (leds w k : Nat) : Symbol :=
  if leds = 0 then .reset
  else
    let q := k / (w + 1)
    let r := k % (w + 1)
    if r = w then .reset
    else
      let j := q * w + r
      if j < 24 * leds then encodeBit (px (j / 24)) (j % 24) else .reset

/-- The symbol the Frame Encoder answers for slot `k` of the machine's frame (R85). -/
def slotSymbol (s : State) (k : Nat) : Symbol :=
  frameSym (framePixel s) s.frameRegs.leds s.frameRegs.window k

end Sys2Proof.Machine
end

