-- ==== Sys2Proof/Machine/Translator.lean ====
section
/-! DEFINITION. The Waveform Translator (R88 to R92): symbol codes and the timing lookup. -/

namespace Sys2Proof.Machine

/-- The code of a symbol on the wire between Frame Encoder and Waveform Translator (R72). -/
def symbolToCode : Symbol → SymCode
  | .zero => 0b00#2
  | .one => 0b01#2
  | .reset => 0b10#2

/-- The symbol of a code, none for the reserved one (R72, R74). -/
def symbolOfCode (c : SymCode) : Option Symbol :=
  if c = 0b00#2 then some .zero
  else if c = 0b01#2 then some .one
  else if c = 0b10#2 then some .reset
  else none

/-- `to_pulse` (R88). -/
def toPulse (f : FrameRegs) : Symbol → Pulse
  | .zero => { high := f.t0h, low := f.t0l }
  | .one => { high := f.t1h, low := f.t1l }
  | .reset => { high := 0#32, low := f.resetLow }

/-- `duty` of R91: what is written to A_DUTY for a pulse. -/
def pulseDuty (p : Params) (u : Pulse) : Word := BitVec.ofNat 32 (toCounts p u.high.toNat)

/-- `hold` of R91: the slot's hold length for a pulse; the sum does not wrap. -/
def pulseHold (p : Params) (u : Pulse) : Nat := toCycles p (u.high.toNat + u.low.toNat)

/-- `period_counts` of R91. -/
def periodCounts (p : Params) (f : FrameRegs) : Word := BitVec.ofNat 32 (toCounts p f.periodNs.toNat)

end Sys2Proof.Machine
end

