-- ==== Sys2Proof/Machine/Sequencer.lean ====
section
/-! DEFINITION. The PWM timing controller and register-write sequencer (R93 to R110). A function of an edge takes two
states: `s`, the state at the start of the cycle, which every read is of, and `h`, the edge being built, which already
holds the effects of the cycle's host access and on which the sequencer writes (R13, R107, R135). -/

namespace Sys2Proof.Machine

/-- The device's pins in this cycle: what `dsIn` says, else the free values of the cycle (R8, R54). -/
def dsNow (s : State) : DsIn :=
  match s.dsIn with
  | d :: _ => d
  | [] => { ack := Config.dsAck s.cycle, rdata := Config.dsRdata s.cycle, err := Config.dsErr s.cycle }

/-- The transaction of an operation tag (R93). -/
def opRequest (s : State) : Op → DsReq
  | .wrPeriod => .write s.mapRegs.aPeriod (periodCounts s.params s.frameRegs)
  | .rdCtrl => .read s.mapRegs.aCtrl
  | .wrCtrlEn => .write s.mapRegs.aCtrl (s.seq.cval ||| s.mapRegs.enMask)
  | .wrCtrlLock => .write s.mapRegs.aCtrl (s.seq.cval ||| s.mapRegs.lockMask)
  | .wrDuty => .write s.mapRegs.aDuty s.seq.wduty
  | .rdDuty => .read s.mapRegs.aDuty
  | .wrCtrlUnlock => .write s.mapRegs.aCtrl (s.seq.cval &&& ~~~s.mapRegs.lockMask)

/-- The host's pins in this cycle: what `hostIn` says, else no reset and no access (R48, log 2). -/
def hostNow (s : State) : HostIn :=
  match s.hostIn with
  | p :: _ => p
  | [] => { rst := false, acc := none }

/-- What the block drives on the downstream port in this cycle; `none` is `d_req` = 0 (R54, R94, R149). -/
def dsPort (s : State) : Option DsReq :=
  if (hostNow s).rst then none
  else
    match s.seq.phase, s.seq.ops with
    | .idle, _ => none
    | _, [] => none
    | _, op :: _ => some (opRequest s op)

/-- The record of a transaction that completes in this cycle (R7). -/
def txnOf (s : State) : DsReq → DsTxn
  | .write a v => { cycle := s.cycle, write := true, addr := a, data := v }
  | .read a => { cycle := s.cycle, write := false, addr := a, data := (dsNow s).rdata }

/-- The completion effect of an operation (R93, R102). -/
def completeOp (s : State) (op : Op) (h : State) : State :=
  let h1 := { h with trace := txnOf s (opRequest s op) :: h.trace }
  match op with
  | .rdCtrl => { h1 with seq := { h1.seq with cval := (dsNow s).rdata } }
  | .rdDuty =>
    let h2 := { h1 with rbDuty := (dsNow s).rdata }
    if (dsNow s).rdata ≠ s.seq.wduty then raiseSeq .rbMismatch h2 else h2
  | .wrPeriod | .wrCtrlEn | .wrCtrlLock | .wrDuty | .wrCtrlUnlock => h1

/-- `ops'` of R107: the operations left after this cycle. -/
def opsLeft (s : State) : List Op :=
  match s.seq.ops with
  | [] => []
  | op :: rest => if (dsNow s).ack then rest else op :: rest

/-- Drive the head of the list for one cycle (R94). -/
def driveOps (s h : State) : State :=
  let h1 :=
    match s.seq.ops with
    | [] => h
    | op :: _ => if (dsNow s).ack then completeOp s op h else h
  { h1 with seq := { h1.seq with ops := opsLeft s } }

/-- The frame prologue (R96). -/
def prologueOps : List Op := [.wrPeriod, .rdCtrl, .wrCtrlEn]

/-- `StartFrame(blank, final)` (R95). -/
def startFrame (blank final : Bool) (s h : State) : State :=
  { h with
    backend := .transmitting
    frameLen := BitVec.ofNat 32 (frameLength s.frameRegs.leds s.frameRegs.window)
    pulsesDone := 0#32
    seq := { h.seq with blank := blank, final := final, ops := prologueOps, phase := .pro } }

/-- `slot_ops()` (R98). -/
def slotOps (s : State) : List Op :=
  let rb := if s.frameRegs.readback then [Op.rdDuty] else []
  if s.mapRegs.lockSup then [.rdCtrl, .wrCtrlLock, .wrDuty] ++ rb ++ [.wrCtrlUnlock] else [.wrDuty] ++ rb

/-- What `StartSlot` loads for a pulse (R97). The symbol wire is used up. -/
def loadSlot (s h : State) (u : Pulse) : State :=
  { h with
    symbolWire := none
    seq := { h.seq with
      wduty := pulseDuty s.params u
      hold := pulseHold s.params u
      hc := 0
      ops := slotOps s
      phase := .slot } }

/-- The code on the symbol wire for slot `k`: the Frame Encoder's, unless one is forced (R72, R85, log 6). -/
def symbolAt (s : State) (k : Nat) : SymCode :=
  match s.symbolWire with
  | some c => c
  | none => symbolToCode (slotSymbol s k)

/-- `StartSlot(k)` (R97): the symbol's code is decoded and its pulse loaded; the reserved code is a fault (R74). -/
def startSlot (k : Nat) (s h : State) : Out :=
  match symbolOfCode (symbolAt s k) with
  | some y => .next (loadSlot s h (toPulse s.frameRegs y))
  | none => .fault .reservedSymbol

/-- `FrameEnd()` (R104). -/
def frameEnd (s h : State) : State :=
  { h with
    backend := if s.seq.final then .disabled else .enabled
    flags := h.flags ||| doneFlag
    frameCnt := s.frameCnt + 1#32
    seq := { h.seq with phase := .idle, ops := [], blank := false, final := false } }

/-- The end of slot `k` (R103). -/
def slotEnd (s h : State) : Out :=
  let k := s.pulsesDone.toNat
  let h1 := { h with pulsesDone := BitVec.ofNat 32 (k + 1) }
  if k + 1 < s.frameLen.toNat then startSlot (k + 1) s h1 else .next (frameEnd s h1)

/-- `ReleaseAction()` (R119). -/
def releaseAction (s h : State) : State :=
  if s.seq.periodValid && cfgOk s.params s.frameRegs then startFrame true true s h
  else { h with backend := .disabled }

/-- The idle phase (R106). -/
def idleEdge (s h : State) : State :=
  if s.seq.relPend then releaseAction s { h with seq := { h.seq with relPend := false } } else h

/-- The SET_PERIOD phase (R105). -/
def setpEdge (s h : State) : State :=
  let h1 := driveOps s h
  if opsLeft s = [] then { h1 with seq := { h1.seq with periodValid := true, phase := .idle } } else h1

/-- The prologue phase (R96). -/
def proEdge (s h : State) : Out :=
  let h1 := driveOps s h
  if opsLeft s = [] then startSlot 0 s h1 else .next h1

/-- The slot phase: the hold rule and overrun (R100, R101). -/
def slotEdge (s h : State) : Out :=
  let hc := s.seq.hc + 1
  let h1 := driveOps s h
  let h2 := { h1 with seq := { h1.seq with hc := hc } }
  if opsLeft s = [] ∧ s.seq.hold ≤ hc then
    slotEnd s (if s.seq.hold < hc then raiseSeq .overrun h2 else h2)
  else .next h2

/-- `SeqCycle()` (R107), with `rst` = 0. -/
def seqEdge (s h : State) : Out :=
  match s.seq.phase with
  | .idle => .next (idleEdge s h)
  | .setp => .next (setpEdge s h)
  | .pro => proEdge s h
  | .slot => slotEdge s h

end Sys2Proof.Machine
end

