-- ==== Sys2Proof/Machine/Commands.lean ====
section
/-! DEFINITION. The commands (R111 to R122), each as the effect of its CMD write at the edge ending the write's cycle,
the sequencer's own part of that edge left to the step. -/

namespace Sys2Proof.Machine

/-- Steps 4 and 5 of R111: a command that needs an idle block in a given STATE. -/
def whenIdleIn (legal : Backend) (s : State) (effect : State) : State :=
  if s.busy then rejectWrite .cmdBusy s
  else if s.backend = legal then effect
  else rejectWrite .stateErr s

/-- NOP (R112). -/
def execNop (s : State) : Out := .next (acceptWrite s)

/-- OPEN (R114). -/
def execOpen (s : State) : Out :=
  .next (whenIdleIn .uninitialized s
    (if s.mapRegs.ok then acceptWrite { s with backend := .enabled } else rejectWrite .mapFail s))

/-- SET_PERIOD (R115). -/
def execSetPeriod (s : State) : Out :=
  .next (whenIdleIn .enabled s
    (acceptWrite { s with seq := { s.seq with ops := [.wrPeriod], phase := .setp } }))

/-- TRANSMIT (R117). -/
def execTransmit (s : State) : Out :=
  .next (whenIdleIn .enabled s
    (if !s.seq.periodValid then rejectWrite .periodErr s
     else if !cfgOk s.params s.frameRegs then rejectWrite .cfgErr s
     else acceptWrite (startFrame false false s s)))

/-- CLOSE (R118); in DISABLED it is accepted and does nothing (R111 step 5). -/
def execClose (s : State) : Out :=
  .next (if s.busy then rejectWrite .cmdBusy s
    else if s.backend = .disabled then acceptWrite s
    else if s.backend = .enabled then acceptWrite { s with backend := .disabled }
    else rejectWrite .stateErr s)

/-- RELEASE (R120), never CMD_BUSY. -/
def execRelease (s : State) : Out :=
  .next (match s.backend with
    | .uninitialized => rejectWrite .stateErr s
    | .disabled => acceptWrite s
    | .enabled | .transmitting =>
      if s.busy then
        if s.seq.relPend || s.seq.final then acceptWrite s
        else acceptWrite { s with seq := { s.seq with relPend := true } }
      else acceptWrite (releaseAction s s))

/-- A reserved CMD word (R111 step 1, R74); the word itself has no effect. -/
def execCmdReserved (_word : Word) (s : State) : Out := .next (rejectWrite .illCmd s)

/-- `CmdWrite(word)` (R111, R127): the command whose opcode the word equals exactly (R70). -/
def cmdWrite (word : Word) (s : State) : Out :=
  if word = 0x0#32 then execNop s
  else if word = 0x1#32 then execOpen s
  else if word = 0x2#32 then execSetPeriod s
  else if word = 0x3#32 then execTransmit s
  else if word = 0x4#32 then execClose s
  else if word = 0x5#32 then execRelease s
  else execCmdReserved word s

end Sys2Proof.Machine
end

