-- ==== Sys2Proof/Machine/HostAccess.lean ====
section
/-! DEFINITION. Host reads and writes (R124 to R132), each as its effect at the edge ending its cycle, the sequencer's own
part of that edge left to the step. -/

namespace Sys2Proof.Machine

/-- Word alignment of an offset (R50). -/
def aligned (off : Offset) : Bool := decide (off.extractLsb' 0 2 = 0#2)

/-- HostRead(off) (R125). -/
def execHostRead (off : Offset) (s : State) : Out :=
  .next (if !aligned off then rejectRead .addrErr s
    else match targetOf s.params off with
      | .csr r => acceptRead (readCsr s r) s
      | .pixel i => acceptRead ((readPixel s i).zeroExtend 32) s
      | .unmapped => rejectRead .addrErr s)

/-- Steps 5 to 7 of R126 for a writable register: the group's lock (R129, R130, R131), then the store (R132). -/
def writeReg (r : Csr) (data : Word) (s : State) : State :=
  if r.inMapGroup && decide (s.backend ≠ .uninitialized) then rejectWrite .stateErr s
  else if r.inFrameGroup && s.busy then rejectWrite .busyWerr s
  else acceptWrite (storeCsr r data s)

/-- Step 7 of R126 for a pixel entry: the frame group's lock (R131), then the store (R132). -/
def writePix (i : Nat) (data : Word) (s : State) : State :=
  if s.busy then rejectWrite .busyWerr s
  else acceptWrite (writePixel i (data.extractLsb' 0 24) s)

/-- A write to a CSR (R126 steps 2 to 7). -/
def writeCsr (r : Csr) (data : Word) (s : State) : Out :=
  if r.readOnly then .next (rejectWrite .addrErr s)
  else
    match r with
    | .cmd => cmdWrite data s
    | .status => .next (acceptWrite (clearFlags data s))
    | r => .next (writeReg r data s)

/-- HostWrite(off, data) (R126). -/
def execHostWrite (off : Offset) (data : Word) (s : State) : Out :=
  if !aligned off then .next (rejectWrite .addrErr s)
  else
    match targetOf s.params off with
    | .csr r => writeCsr r data s
    | .pixel i => .next (writePix i data s)
    | .unmapped => .next (rejectWrite .addrErr s)

end Sys2Proof.Machine
end

