-- ==== Sys2Proof/Machine/Symbols.lean ====
section
/-! DEFINITION. The protocol symbols as instructions: what the start of a slot does with the symbol (R88, R97, log 9). -/

namespace Sys2Proof.Machine

/-- ZERO: its slot is loaded with the pulse (T0H_NS, T0L_NS). -/
def execSymZero (s : State) : Out := .next (loadSlot s s (toPulse s.frameRegs .zero))

/-- ONE: its slot is loaded with the pulse (T1H_NS, T1L_NS). -/
def execSymOne (s : State) : Out := .next (loadSlot s s (toPulse s.frameRegs .one))

/-- RESET: its slot is loaded with the pulse (0, RESET_LOW_NS). -/
def execSymReset (s : State) : Out := .next (loadSlot s s (toPulse s.frameRegs .reset))

/-- Code 0b11: "translating it is a fault of the model, never a pulse" (R74). -/
def execSymReserved (_s : State) : Out := .fault .reservedSymbol

end Sys2Proof.Machine
end

