-- ==== Sys2Proof/Machine/Dispatch.lean ====
section
/-! DEFINITION. One arm per instruction, each one call of its meaning. -/

namespace Sys2Proof.Machine

def exec (i : Instr) (s : State) : Host.Outcome State Fault Refusal :=
  match i with
  | .cmdNop => Sys2Proof.Machine.execNop s
  | .cmdOpen => Sys2Proof.Machine.execOpen s
  | .cmdSetPeriod => Sys2Proof.Machine.execSetPeriod s
  | .cmdTransmit => Sys2Proof.Machine.execTransmit s
  | .cmdClose => Sys2Proof.Machine.execClose s
  | .cmdRelease => Sys2Proof.Machine.execRelease s
  | .cmdReserved word => Sys2Proof.Machine.execCmdReserved word s
  | .symZero => Sys2Proof.Machine.execSymZero s
  | .symOne => Sys2Proof.Machine.execSymOne s
  | .symReset => Sys2Proof.Machine.execSymReset s
  | .symReserved => Sys2Proof.Machine.execSymReserved s
  | .hostRead off => Sys2Proof.Machine.execHostRead off s
  | .hostWrite off data => Sys2Proof.Machine.execHostWrite off data s

end Sys2Proof.Machine
end

