-- ==== Sys2Proof/WellFormed.lean ====
section
/-! DEFINITION. Which instructions have an encoding: all of them, but a reserved CMD word that spells a command. -/

namespace Sys2Proof

/-- The only check an instruction needs: a reserved CMD word is none of the six command words 0x0 to 0x5 (R70, R74).
Every 13-bit offset and every 32-bit data word is a legal operand of an access (R71). -/
def Instr.wellFormed : Instr → Bool
  | .cmdReserved word => decide (6 ≤ word.toNat)
  | .cmdNop | .cmdOpen | .cmdSetPeriod | .cmdTransmit | .cmdClose | .cmdRelease => true
  | .symZero | .symOne | .symReset | .symReserved => true
  | .hostRead _ | .hostWrite _ _ => true

end Sys2Proof
end

