-- ==== Sys2Proof/Decode.lean ====
section
/-! DEFINITION. Decoding of the three formats (R69 to R72), total on any bytes, and the encoder. A SYMBOL is laid out
in one byte, a CMD word in four, a HOSTACC word in six, least significant byte first, unused high bits zero (log 11). -/

namespace Sys2Proof

/-- Why bytes are no instruction. -/
inductive DecodeError where
  /-- The number of bytes is not that of any format. -/
  | badLength
  /-- A bit above a 2-bit SYMBOL code is set. -/
  | symbolPadding
  /-- A bit above a 46-bit HOSTACC word is set. -/
  | accessPadding
  deriving DecidableEq, Repr

/-- An encoded instruction: a word in one of the formats of R68. -/
inductive Code where
  | symbol (code : SymCode)
  | cmd (word : Word)
  | access (acc : AccessWord)
  deriving DecidableEq, Repr

/-- R72. -/
def decodeSymbol (code : SymCode) : Instr :=
  if code = 0b00#2 then .symZero
  else if code = 0b01#2 then .symOne
  else if code = 0b10#2 then .symReset
  else .symReserved

/-- R70: a CMD word selects a command when it equals the opcode exactly; every other word is reserved (R74). -/
def decodeCmd (word : Word) : Instr :=
  if word = 0x0#32 then .cmdNop
  else if word = 0x1#32 then .cmdOpen
  else if word = 0x2#32 then .cmdSetPeriod
  else if word = 0x3#32 then .cmdTransmit
  else if word = 0x4#32 then .cmdClose
  else if word = 0x5#32 then .cmdRelease
  else .cmdReserved word

/-- `h_write`, bit 45 of an access (R71). -/
def accWrite (acc : AccessWord) : Bool := acc.getLsbD 45

/-- `h_addr[12:0]`, bits 44 to 32 of an access (R71). -/
def accAddr (acc : AccessWord) : Offset := acc.extractLsb' 32 13

/-- `h_wdata[31:0]`, bits 31 to 0 of an access (R71). -/
def accData (acc : AccessWord) : Word := acc.extractLsb' 0 32

/-- R71: `h_write` chooses; a read ignores `h_wdata`. -/
def decodeAccess (acc : AccessWord) : Instr :=
  if accWrite acc then .hostWrite (accAddr acc) (accData acc) else .hostRead (accAddr acc)

/-- The instruction an encoded word stands for. -/
def decodeCode : Code → Instr
  | .symbol code => decodeSymbol code
  | .cmd word => decodeCmd word
  | .access acc => decodeAccess acc

/-- The number the bytes spell, least significant byte first (R49). -/
def natOfBytes : List Byte → Nat
  | [] => 0
  | b :: bs => b.toNat + 256 * natOfBytes bs

/-- The `k` low bytes of a number, least significant byte first (R49). -/
def bytesOfNat : Nat → Nat → List Byte
  | 0, _ => []
  | k + 1, n => BitVec.ofNat 8 n :: bytesOfNat k (n / 256)

/-- The format is told by the number of bytes; every format has one fixed width (R68, R75). -/
def decodeCodeBytes (bs : List Byte) : Except DecodeError Code :=
  let n := natOfBytes bs
  match bs.length with
  | 1 => if n < 2 ^ 2 then .ok (.symbol (BitVec.ofNat 2 n)) else .error .symbolPadding
  | 4 => .ok (.cmd (BitVec.ofNat 32 n))
  | 6 => if n < 2 ^ 46 then .ok (.access (BitVec.ofNat 46 n)) else .error .accessPadding
  | _ => .error .badLength

/-- The decoder, total on any bytes. -/
def decode (bs : List Byte) : Except DecodeError Instr :=
  match decodeCodeBytes bs with
  | .ok c => .ok (decodeCode c)
  | .error e => .error e

/-- Bytes of a format (log 11). -/
def formatBytes : Format → Nat
  | .symbol => 1
  | .cmd => 4
  | .hostAcc => 6

/-- The format of a row of the opcode table, told by its number of bits (log 11). -/
def tableFormat (nbits : Nat) : Format :=
  if nbits ≤ 8 then .symbol else if nbits ≤ 32 then .cmd else .hostAcc

/-- The instruction the decoder reads from a word of the opcode table, numbered as the table numbers it. -/
def decodeTableWord (nbits w : Nat) : Option Instr :=
  match decode (bytesOfNat (formatBytes (tableFormat nbits)) w) with
  | .ok i => some i
  | .error _ => none

/-! The encoder. -/

/-- One host access as a word (R71). -/
def accessWord (write : Bool) (off : Offset) (data : Word) : AccessWord :=
  BitVec.ofNat 46 ((if write then 2 ^ 45 else 0) + off.toNat * 2 ^ 32 + data.toNat)

/-- The word of an instruction, from the tables of R70, R71 and R72. -/
def encode : Instr → Code
  | .cmdNop => .cmd 0x0#32
  | .cmdOpen => .cmd 0x1#32
  | .cmdSetPeriod => .cmd 0x2#32
  | .cmdTransmit => .cmd 0x3#32
  | .cmdClose => .cmd 0x4#32
  | .cmdRelease => .cmd 0x5#32
  | .cmdReserved word => .cmd word
  | .symZero => .symbol 0b00#2
  | .symOne => .symbol 0b01#2
  | .symReset => .symbol 0b10#2
  | .symReserved => .symbol 0b11#2
  | .hostRead off => .access (accessWord false off 0#32)
  | .hostWrite off data => .access (accessWord true off data)

/-- The bytes of an encoded word. -/
def codeBytes : Code → List Byte
  | .symbol code => bytesOfNat 1 code.toNat
  | .cmd word => bytesOfNat 4 word.toNat
  | .access acc => bytesOfNat 6 acc.toNat

/-- The bytes of an instruction. -/
def encodeBytes (i : Instr) : List Byte := codeBytes (encode i)

end Sys2Proof
end

