-- ==== Sys2Proof/Machine/Fetch.lean ====
section
/-! DEFINITION. Where encoded words enter the machine: the host port, and the wire between Frame Encoder and Waveform
Translator. The block has no program counter and fetches no instructions (R17). -/

namespace Sys2Proof.Machine

/-- The access on the host port in this cycle, decoded (R48, R71). -/
def fetchAccess (s : State) : Option Instr :=
  match (hostNow s).acc with
  | some a => some (decodeAccess a)
  | none => none

/-- The edge of a cycle without an access: nothing but that no response is given. -/
def noAccess (s : State) : State := { s with resp := none }

/-- The next cycle: its number, and the pins the host and the device drive in it. -/
def nextCycle (s : State) : State :=
  { s with cycle := s.cycle + 1, hostIn := s.hostIn.tail, dsIn := s.dsIn.tail }

/-- Put an access on the host port of the next step. -/
def placeAccess (a : AccessWord) (s : State) : State :=
  { s with hostIn := { rst := false, acc := some a } :: s.hostIn.tail }

/-- Make the next step the start of a slot with a given symbol code: no host activity, a prologue that has nothing left
to do, and the code on the symbol wire (log 6). -/
def placeSymbol (c : SymCode) (s : State) : State :=
  { s with
    hostIn := { rst := false, acc := none } :: s.hostIn.tail
    symbolWire := some c
    seq := { s.seq with phase := .pro, ops := [] } }

/-- Put a word of the opcode table where the next step takes it (log 10): a CMD word as the host write of that word to
CMD, an access on the host port, a symbol code on the symbol wire. -/
def placeWord (nbits w : Nat) (s : State) : State :=
  match tableFormat nbits with
  | .symbol => placeSymbol (BitVec.ofNat 2 w) s
  | .cmd => placeAccess (accessWord true 0x014#13 (BitVec.ofNat 32 w)) s
  | .hostAcc => placeAccess (BitVec.ofNat 46 w) s

end Sys2Proof.Machine
end

