-- ==== Sys2Proof/Machine/Step.lean ====
section
/-! DEFINITION. One step is one cycle of `clk`, up to and including the edge that ends it (R13, R107, R149). -/

namespace Sys2Proof.Machine

/-- The edge of the host port: the access's effect, as `exec` gives it (log 1). -/
def hostEdge (s : State) : Host.Outcome State Fault Refusal :=
  match fetchAccess s with
  | some i => exec i s
  | none => .next (noAccess s)

/-- One cycle. With `rst` = 1 the block is reset (R149). Otherwise the cycle's host access and the sequencer both read the
state at the start of the cycle, and their effects meet at its edge (R107, R135, log 1). -/
def step (s : State) : Host.Outcome State Fault Refusal :=
  if (hostNow s).rst then .next (nextCycle (rstEdge (hostNow s).acc s))
  else
    match hostEdge s with
    | .next h =>
      match seqEdge s h with
      | .next t => .next (nextCycle t)
      | .fault f => .fault f
      | .refused r => .refused r
    | .fault f => .fault f
    | .refused r => .refused r

/-- The state whose very next step runs the given word of the opcode table (log 10). -/
def State.withFetchWord (s : State) (nbits w : Nat) : State := placeWord nbits w s

end Sys2Proof.Machine
end

