-- ==== Sys2Proof/Safety.lean ====
section
/-! DEFINITION. The terms claims are stated in: what happens at the edge of a cycle, and the invariant that rules out the
states no run reaches. -/

namespace Sys2Proof.Machine

/-- No reset in this cycle. -/
abbrev noReset (s : State) : Prop := (hostNow s).rst = false

/-- Neither a reset nor a host access in this cycle. -/
abbrev hostQuiet (s : State) : Prop := hostNow s = { rst := false, acc := none }

/-- The host writes `data` at `off` in this cycle. -/
abbrev hostWrites (s : State) (off : Offset) (data : Word) : Prop :=
  fetchAccess s = some (.hostWrite off data)

/-- The current slot ends at the edge of this cycle (R100). -/
abbrev slotEnds (s : State) : Prop :=
  s.seq.phase = .slot ∧ opsLeft s = [] ∧ s.seq.hold ≤ s.seq.hc + 1

/-- The current slot ends at this edge and took longer than its hold (R101). -/
abbrev slotOverruns (s : State) : Prop := slotEnds s ∧ s.seq.hold < s.seq.hc + 1

/-- The frame's last slot ends at the edge of this cycle (R103). -/
abbrev frameEnds (s : State) : Prop := slotEnds s ∧ s.frameLen.toNat ≤ s.pulsesDone.toNat + 1

/-- An operation completes at the edge of this cycle (R94). -/
abbrev completes (s : State) (op : Op) : Prop :=
  s.seq.phase ≠ .idle ∧ s.seq.ops.head? = some op ∧ (dsNow s).ack = true

/-- A duty readback that differs from the value written completes at the edge of this cycle (R102). -/
abbrev readbackMismatches (s : State) : Prop := completes s .rdDuty ∧ (dsNow s).rdata ≠ s.seq.wduty

/-- What is left of each phase's operations (R96, R98, R105). -/
def opsShape (s : State) : Bool :=
  match s.seq.phase with
  | .idle => decide (s.seq.ops = [])
  | .setp => decide (s.seq.ops = [.wrPeriod])
  | .pro => decide (s.seq.ops ≠ []) && s.seq.ops.isSuffixOf prologueOps
  | .slot => s.seq.ops.isSuffixOf (slotOps s)

/-- PULSES_DONE against FRAME_LEN, and FRAME_LEN against the frame's configuration (R38, R39, R84). -/
def frameProgress (s : State) : Bool :=
  match s.seq.phase with
  | .idle | .setp => decide (s.pulsesDone = s.frameLen)
  | .pro =>
    decide (s.pulsesDone = 0#32 ∧ s.frameLen.toNat = frameLength s.frameRegs.leds s.frameRegs.window)
  | .slot =>
    decide (s.pulsesDone.toNat < s.frameLen.toNat ∧
      s.frameLen.toNat = frameLength s.frameRegs.leds s.frameRegs.window)

/-- What a slot holds (R91, R97, R100): the values of its symbol, and a running hold once its operations are done. -/
def slotLoaded (s : State) : Bool :=
  match s.seq.phase with
  | .slot =>
    let u := toPulse s.frameRegs (slotSymbol s s.pulsesDone.toNat)
    decide (s.seq.wduty = pulseDuty s.params u ∧ s.seq.hold = pulseHold s.params u ∧
      (s.seq.ops = [] → s.seq.hc < s.seq.hold))
  | _ => true

/-- The invariant of the machine. -/
structure Inv (s : State) : Prop where
  /-- The build is a legal one (R9). -/
  legalParams : s.params.legal
  /-- Pixel RAM keeps its canonical form, inside its window, the res0 bytes never stored (R41, R47). -/
  pixCanonical : Memory.wf s.pix = true
  pixInRange : ∀ c ∈ s.pix, pixBase ≤ c.1 ∧ c.1 < pixBase + 4 * s.params.maxLeds ∧ (c.1 - pixBase) % 4 ≠ 3
  /-- No symbol is forced. -/
  wireFree : s.symbolWire = none
  /-- res0 bits hold 0 (R22, R23, R25, R34, R35). -/
  ctrlRes0 : s.frameRegs.ctrl &&& ~~~0x00000001#32 = 0#32
  offsRes0 : s.mapRegs.offs &&& ~~~0x00FFFFFF#32 = 0#32
  featRes0 : s.mapRegs.feat &&& ~~~0x0000011F#32 = 0#32
  irqEnRes0 : s.irqEn &&& ~~~0x03FF0100#32 = 0#32
  flagsRes0 : s.flags &&& ~~~0x03FF0100#32 = 0#32
  /-- LAST_ERR holds a code of R134. -/
  errKnown : s.lastErr.toNat ≤ 10
  /-- STATE = TRANSMITTING exactly when the phase is PRO or SLOT (R24). -/
  transmittingIff : s.backend = .transmitting ↔ (s.seq.phase = .pro ∨ s.seq.phase = .slot)
  /-- SET_PERIOD runs in ENABLED (R105). -/
  setpEnabled : s.seq.phase = .setp → s.backend = .enabled
  /-- Nothing is pending in UNINITIALIZED or DISABLED (R114, R122). -/
  closedIdle : s.backend = .uninitialized ∨ s.backend = .disabled → s.seq.relPend = false
  /-- No period was set before OPEN (R115). -/
  periodAfterOpen : s.backend = .uninitialized → s.seq.periodValid = false
  /-- From OPEN on the map is valid (R53, R114). -/
  mapValid : s.backend ≠ .uninitialized → s.mapRegs.ok = true
  /-- `seq.final` is set in a blanking frame only, and no release is pending in one (R119, R120). -/
  finalInFrame : s.seq.final = true → s.backend = .transmitting ∧ s.seq.relPend = false
  blankIsFinal : s.seq.blank = s.seq.final
  /-- A frame runs on a checked configuration (R117, R119). -/
  frameConfigured : s.backend = .transmitting →
    s.seq.periodValid = true ∧ cfgOk s.params s.frameRegs = true
  ops : opsShape s = true
  progress : frameProgress s = true
  slot : slotLoaded s = true

end Sys2Proof.Machine
end

