-- ==== Sys2Proof/Certificates/Slice0/Obligations.lean ====
section
/-! DEFINITION. The statements for the provers. A statement quantifies over every state (so over every build, every
schedule of host accesses and every behaviour of the downstream device) unless it says otherwise.

`resp`, `trace`, `cycle`, `hostIn`, `dsIn` and `symbolWire` are the model's own fields: `resp` and `trace` hold what the
pins have shown (R7, R48; logs 7 and 8), the others what they will show (logs 2, 3 and 6). Pixel RAM a host write has not
set reads as a free value (R42, log 4); no statement rests on what that value is. -/

open Sys2Proof Sys2Proof.Machine

/-! ### Encodings -/

/-- Words written out bit by bit from R69 to R72 decode to the instruction they stand for. The rules give the bits; how
the words lie in bytes (one, four and six bytes, least significant first, the format told by the number of bytes) is the
model's choice (log 11). -/
def Obligations.WrittenOutWordsDecode : Prop :=
  decode [0x00#8, 0x00#8, 0x00#8, 0x00#8] = .ok .cmdNop ∧
  decode [0x01#8, 0x00#8, 0x00#8, 0x00#8] = .ok .cmdOpen ∧
  decode [0x02#8, 0x00#8, 0x00#8, 0x00#8] = .ok .cmdSetPeriod ∧
  decode [0x03#8, 0x00#8, 0x00#8, 0x00#8] = .ok .cmdTransmit ∧
  decode [0x04#8, 0x00#8, 0x00#8, 0x00#8] = .ok .cmdClose ∧
  decode [0x05#8, 0x00#8, 0x00#8, 0x00#8] = .ok .cmdRelease ∧
  decode [0x13#8, 0x00#8, 0x00#8, 0x00#8] = .ok (.cmdReserved 0x00000013#32) ∧
  decode [0x00#8] = .ok .symZero ∧ decode [0x01#8] = .ok .symOne ∧
  decode [0x02#8] = .ok .symReset ∧ decode [0x03#8] = .ok .symReserved ∧
  decode [0x00#8, 0x00#8, 0x00#8, 0x00#8, 0x60#8, 0x00#8] = .ok (.hostRead 0x0060#13) ∧
  decode [0x56#8, 0x34#8, 0x12#8, 0xAB#8, 0x04#8, 0x30#8] = .ok (.hostWrite 0x1004#13 0xAB123456#32)

/-- For every well-formed instruction, with every operand, decoding its bytes gives it back. -/
def Obligations.DecodeOfEncodeIsTheInstruction : Prop :=
  ∀ i : Instr, i.wellFormed = true → decode (encodeBytes i) = .ok i

/-- What decodes is well-formed and, but for the ignored `h_wdata` of a read (R71), encodes back to the same bytes. -/
def Obligations.EncodeOfDecodeIsTheBytes : Prop :=
  ∀ (bs : List Byte) (i : Instr), decode bs = .ok i →
    i.wellFormed = true ∧
    ((∀ off, i ≠ .hostRead off) → encodeBytes i = bs) ∧
    (∀ off, i = .hostRead off → (encodeBytes i).drop 4 = bs.drop 4)

/-- R70: a CMD word selects a command when it equals its opcode exactly; all other words are reserved. -/
def Obligations.CmdWordSelectsExactly : Prop :=
  ∀ w : Word,
    (decodeCmd w = .cmdNop ↔ w = 0x00000000#32) ∧ (decodeCmd w = .cmdOpen ↔ w = 0x00000001#32) ∧
    (decodeCmd w = .cmdSetPeriod ↔ w = 0x00000002#32) ∧ (decodeCmd w = .cmdTransmit ↔ w = 0x00000003#32) ∧
    (decodeCmd w = .cmdClose ↔ w = 0x00000004#32) ∧ (decodeCmd w = .cmdRelease ↔ w = 0x00000005#32) ∧
    (decodeCmd w = .cmdReserved w ↔ 6 ≤ w.toNat % 16 ∨ w.toNat / 16 ≠ 0)

/-! ### Reset -/

/-- The reset state of every build: R19's reset values, the sequencer's of R44, no access answered, nothing driven, and
every pixel entry at its power-up draw. -/
def Obligations.ResetStateHoldsTheResetValues : Prop :=
  ∀ p : Params,
    (∀ r : Csr, r ≠ .id → r ≠ .param → readCsr (State.resetWith p) r = 0#32) ∧
    readCsr (State.resetWith p) .id = 0x4C504245#32 ∧
    readCsr (State.resetWith p) .param = 0x01#8 ++ 0x00#8 ++ BitVec.ofNat 16 p.maxLeds ∧
    (State.resetWith p).seq =
      { phase := .idle, blank := false, final := false, ops := [], hc := 0, hold := 0, cval := 0#32, wduty := 0#32,
        relPend := false, periodValid := false } ∧
    (State.resetWith p).irq = false ∧ dsPort (State.resetWith p) = none ∧
    (∀ i, readPixel (State.resetWith p) i = Config.pixPowerUp i)

/-- R149: the edge at which `rst` = 1, from every state, in the middle of a frame too. -/
def Obligations.RstResetsAllButPixelRam : Prop :=
  ∀ s : State, (hostNow s).rst = true →
    dsPort s = none ∧
    ∃ t, step s = .next t ∧
      (∀ r : Csr, r ≠ .id → r ≠ .param → readCsr t r = 0#32) ∧
      readCsr t .id = 0x4C504245#32 ∧
      readCsr t .param = 0x01#8 ++ 0x00#8 ++ BitVec.ofNat 16 s.params.maxLeds ∧
      t.seq =
        { phase := .idle, blank := false, final := false, ops := [], hc := 0, hold := 0, cval := 0#32, wduty := 0#32,
          relPend := false, periodValid := false } ∧
      t.backend = .uninitialized ∧ t.busy = false ∧ t.irq = false ∧
      (∀ a, readByte t a = readByte s a) ∧
      (∀ a, (hostNow s).acc = some a → t.resp = some { err := false, rdata := some 0#32 }) ∧
      t.trace = s.trace ∧ t.params = s.params

/-! ### The step runs the decoded instruction -/

/-- The access on the host port is decoded and run; the sequencer adds its part of the same edge and time advances. -/
def Obligations.StepRunsTheAccess : Prop :=
  ∀ (s : State) (a : AccessWord) (rest : List HostIn) (i : Instr),
    s.hostIn = { rst := false, acc := some a } :: rest → decodeAccess a = i →
    (∀ h t, exec i s = .next h → seqEdge s h = .next t →
      step s = .next { t with cycle := t.cycle + 1, hostIn := t.hostIn.tail, dsIn := t.dsIn.tail }) ∧
    (∀ h, exec i s = .next h → s.seq.phase = .idle → s.seq.relPend = false →
      step s = .next { h with cycle := h.cycle + 1, hostIn := h.hostIn.tail, dsIn := h.dsIn.tail })

/-- The edge at which the prologue's last operation is acknowledged starts slot 0 (R96, R97): the code on the symbol wire is
decoded, and its instruction runs on the edge that already holds the host's effects and the completed operation, whatever
the host does in that cycle. That symbols run as instructions is the model's choice (log 9). The last clause is about a
forced code, which `Inv` rules out (log 6): the reserved one stops the step (R74). -/
def Obligations.StepRunsTheSymbol : Prop :=
  (∀ (s : State) (i : Instr), Inv s → noReset s → s.seq.phase = .pro → s.seq.ops = [.wrCtrlEn] → (dsNow s).ack = true →
    decodeSymbol (symbolAt s 0) = i →
    ∃ h u t, hostEdge s = .next h ∧ exec i (driveOps s h) = .next u ∧ step s = .next t ∧
      t = { u with cycle := u.cycle + 1, hostIn := u.hostIn.tail, dsIn := u.dsIn.tail } ∧
      (i = match slotSymbol s 0 with | .zero => .symZero | .one => .symOne | .reset => .symReset) ∧
      t.seq.phase = .slot ∧ t.seq.hc = 0 ∧ t.seq.ops = slotOps s ∧
      t.seq.wduty = pulseDuty s.params (toPulse s.frameRegs (slotSymbol s 0)) ∧
      t.seq.hold = pulseHold s.params (toPulse s.frameRegs (slotSymbol s 0)) ∧
      t.pulsesDone = 0#32 ∧ t.frameLen = s.frameLen ∧ t.backend = .transmitting) ∧
  (∀ s : State, noReset s → s.seq.phase = .pro → opsLeft s = [] → decodeSymbol (symbolAt s 0) = .symReserved →
    step s = .fault .reservedSymbol)

/-- A host write of a word to CMD (offset 0x014) is the command the word decodes to. -/
def Obligations.WriteToCmdRunsTheCommand : Prop :=
  ∀ (w : Word) (s : State), exec (.hostWrite 0x014#13 w) s = exec (decodeCmd w) s

/-! ### Commands -/

/-- R112: NOP answers OKAY in every state and changes nothing. -/
def Obligations.NopIsAcceptedInEveryState : Prop :=
  ∀ s : State, exec .cmdNop s = .next { s with resp := some { err := false, rdata := none } }

/-- R113, R114: OPEN, with `map_ok` written out in naturals. -/
def Obligations.OpenChecksTheMap : Prop :=
  ∀ (s : State) (base size po du ct : Nat),
    base = s.mapRegs.base.toNat → size = s.mapRegs.size.toNat →
    po = s.mapRegs.offs.toNat % 256 → du = s.mapRegs.offs.toNat / 256 % 256 →
    ct = s.mapRegs.offs.toNat / 65536 % 256 →
    (s.busy = true → exec .cmdOpen s = .next { s with
        flags := s.flags ||| 0x00040000#32, lastErr := 3#4, resp := some { err := true, rdata := none } }) ∧
    (s.busy = false → s.backend ≠ .uninitialized → exec .cmdOpen s = .next { s with
        flags := s.flags ||| 0x00080000#32, lastErr := 4#4, resp := some { err := true, rdata := none } }) ∧
    (s.busy = false → s.backend = .uninitialized →
      (size ≠ 0 ∧ base % 4 = 0 ∧ base + size ≤ 2 ^ 32 ∧
        (po % 4 = 0 ∧ po + 4 ≤ size) ∧ (du % 4 = 0 ∧ du + 4 ≤ size) ∧ (ct % 4 = 0 ∧ ct + 4 ≤ size) ∧
        po ≠ du ∧ po ≠ ct ∧ du ≠ ct) →
      exec .cmdOpen s = .next { s with backend := .enabled, resp := some { err := false, rdata := none } }) ∧
    (s.busy = false → s.backend = .uninitialized →
      ¬ (size ≠ 0 ∧ base % 4 = 0 ∧ base + size ≤ 2 ^ 32 ∧
        (po % 4 = 0 ∧ po + 4 ≤ size) ∧ (du % 4 = 0 ∧ du + 4 ≤ size) ∧ (ct % 4 = 0 ∧ ct + 4 ≤ size) ∧
        po ≠ du ∧ po ≠ ct ∧ du ≠ ct) →
      exec .cmdOpen s = .next { s with
        flags := s.flags ||| 0x00200000#32, lastErr := 6#4, resp := some { err := true, rdata := none } })

/-- SET_PERIOD: the phase and operation it loads, and its errors (R115). -/
def Obligations.SetPeriodStartsThePeriodWrite : Prop :=
  ∀ s : State,
    (s.busy = false → s.backend = .enabled →
      exec .cmdSetPeriod s = .next { s with
        seq := { s.seq with ops := [.wrPeriod], phase := .setp }, resp := some { err := false, rdata := none } }) ∧
    (s.busy = true → exec .cmdSetPeriod s = .next { s with
        flags := s.flags ||| 0x00040000#32, lastErr := 3#4, resp := some { err := true, rdata := none } }) ∧
    (s.busy = false → s.backend ≠ .enabled → exec .cmdSetPeriod s = .next { s with
        flags := s.flags ||| 0x00080000#32, lastErr := 4#4, resp := some { err := true, rdata := none } })

/-- TRANSMIT: the frame it starts, and its errors in order (R95, R116, R117). -/
def Obligations.TransmitStartsTheFrame : Prop :=
  ∀ (s : State) (leds w : Nat), leds = s.frameRegs.ledCount.toNat → w = s.frameRegs.windowBits.toNat →
    (s.busy = false → s.backend = .enabled → s.seq.periodValid = true → 1 ≤ w → leds ≤ s.params.maxLeds →
      exec .cmdTransmit s = .next { s with
        backend := .transmitting
        frameLen := BitVec.ofNat 32 (24 * leds + max 1 ((24 * leds + w - 1) / w))
        pulsesDone := 0#32
        seq := { s.seq with blank := false, final := false, ops := [.wrPeriod, .rdCtrl, .wrCtrlEn], phase := .pro }
        resp := some { err := false, rdata := none } }) ∧
    (s.busy = true → exec .cmdTransmit s = .next { s with
        flags := s.flags ||| 0x00040000#32, lastErr := 3#4, resp := some { err := true, rdata := none } }) ∧
    (s.busy = false → s.backend ≠ .enabled → exec .cmdTransmit s = .next { s with
        flags := s.flags ||| 0x00080000#32, lastErr := 4#4, resp := some { err := true, rdata := none } }) ∧
    (s.busy = false → s.backend = .enabled → s.seq.periodValid = false →
      exec .cmdTransmit s = .next { s with
          flags := s.flags ||| 0x00800000#32, lastErr := 8#4, resp := some { err := true, rdata := none } }) ∧
    (s.busy = false → s.backend = .enabled → s.seq.periodValid = true → (w = 0 ∨ s.params.maxLeds < leds) →
      exec .cmdTransmit s = .next { s with
          flags := s.flags ||| 0x00100000#32, lastErr := 5#4, resp := some { err := true, rdata := none } })

/-- R118: CLOSE. -/
def Obligations.CloseDisables : Prop :=
  ∀ s : State,
    (s.busy = false → s.backend = .enabled →
      exec .cmdClose s = .next { s with backend := .disabled, resp := some { err := false, rdata := none } }) ∧
    (s.busy = false → s.backend = .disabled →
      exec .cmdClose s = .next { s with resp := some { err := false, rdata := none } }) ∧
    (s.busy = true → exec .cmdClose s = .next { s with
        flags := s.flags ||| 0x00040000#32, lastErr := 3#4, resp := some { err := true, rdata := none } }) ∧
    (s.busy = false → s.backend = .uninitialized → exec .cmdClose s = .next { s with
        flags := s.flags ||| 0x00080000#32, lastErr := 4#4, resp := some { err := true, rdata := none } })

/-- R119, R120: RELEASE and the action it takes, case by case. -/
def Obligations.ReleaseBlanksThenDisables : Prop :=
  ∀ (s : State) (leds w : Nat), leds = s.frameRegs.ledCount.toNat → w = s.frameRegs.windowBits.toNat →
    (s.backend = .uninitialized → exec .cmdRelease s = .next (rejectWrite .stateErr s)) ∧
    (s.backend = .disabled → exec .cmdRelease s = .next { s with resp := some { err := false, rdata := none } }) ∧
    (s.backend ≠ .uninitialized → s.busy = true → (s.seq.relPend = true ∨ s.seq.final = true) →
      exec .cmdRelease s = .next { s with resp := some { err := false, rdata := none } }) ∧
    (s.backend = .enabled ∨ s.backend = .transmitting → s.busy = true → s.seq.relPend = false → s.seq.final = false →
      exec .cmdRelease s = .next { s with
        seq := { s.seq with relPend := true }, resp := some { err := false, rdata := none } }) ∧
    (s.backend = .enabled → s.busy = false → s.seq.periodValid = true → 1 ≤ w → leds ≤ s.params.maxLeds →
      exec .cmdRelease s = .next { s with
        backend := .transmitting
        frameLen := BitVec.ofNat 32 (24 * leds + max 1 ((24 * leds + w - 1) / w))
        pulsesDone := 0#32
        seq := { s.seq with blank := true, final := true, ops := [.wrPeriod, .rdCtrl, .wrCtrlEn], phase := .pro }
        resp := some { err := false, rdata := none } }) ∧
    (s.backend = .enabled → s.busy = false →
      (s.seq.periodValid = false ∨ w = 0 ∨ s.params.maxLeds < leds) →
      exec .cmdRelease s = .next { s with backend := .disabled, resp := some { err := false, rdata := none } })

/-- A reserved CMD word, in every state, raises ILL_CMD and does nothing else (R74, R111 step 1). -/
def Obligations.ReservedCommandIsRejected : Prop :=
  ∀ (w : Word) (s : State),
    exec (.cmdReserved w) s = .next { s with
      flags := s.flags ||| 0x00020000#32, lastErr := 2#4, resp := some { err := true, rdata := none } }

/-- The frame of the commands: what none of them writes. -/
def Obligations.CommandsLeaveTheRest : Prop :=
  ∀ (i : Instr) (s t : State), i.format = .cmd → exec i s = .next t →
    (∀ r : Csr, r ≠ .status → r ≠ .lastErr → r ≠ .frameLen → r ≠ .pulsesDone → readCsr t r = readCsr s r) ∧
    t.frameRegs = s.frameRegs ∧ t.mapRegs = s.mapRegs ∧ t.irqEn = s.irqEn ∧
    (∀ a, readByte t a = readByte s a) ∧
    (t.resp = some { err := false, rdata := none } → t.flags = s.flags ∧ t.lastErr = s.lastErr) ∧
    t.seq.hc = s.seq.hc ∧ t.seq.hold = s.seq.hold ∧ t.seq.cval = s.seq.cval ∧ t.seq.wduty = s.seq.wduty ∧
    t.seq.periodValid = s.seq.periodValid ∧ t.trace = s.trace ∧ t.params = s.params

/-! ### Host accesses -/

/-- R125: HostRead, whatever the state; the next state differs in the response alone where the read is accepted. -/
def Obligations.HostReadAnswersAndChangesNothing : Prop :=
  ∀ (s : State) (off : Offset),
    (off.toNat % 4 ≠ 0 → exec (.hostRead off) s = .next (rejectRead .addrErr s)) ∧
    (∀ r : Csr, off = r.offset →
      exec (.hostRead off) s = .next { s with resp := some { err := false, rdata := some (readCsr s r) } }) ∧
    (off = 0x014#13 → exec (.hostRead off) s = .next { s with resp := some { err := false, rdata := some 0#32 } }) ∧
    (off.toNat % 4 = 0 → 0x1000 ≤ off.toNat → off.toNat < 0x1000 + 4 * s.params.maxLeds →
      exec (.hostRead off) s = .next { s with
        resp := some { err := false, rdata := some (0x00#8 ++ readPixel s ((off.toNat - 0x1000) / 4)) } }) ∧
    (off.toNat % 4 = 0 → (∀ r : Csr, off ≠ r.offset) →
      ¬ (0x1000 ≤ off.toNat ∧ off.toNat < 0x1000 + 4 * s.params.maxLeds) →
      exec (.hostRead off) s = .next { s with
        flags := s.flags ||| 0x00010000#32, lastErr := 1#4, resp := some { err := true, rdata := some 0#32 } })

/-- R19 with the rules of its registers: where each CSR is and what a read of it answers. STATUS (0x00C) has a statement of
its own. -/
def Obligations.CsrsReadAsTheTableSays : Prop :=
  ∀ (s : State) (off : Offset) (v : Word),
    (off, v) ∈
      [(0x000#13, 0x4C504245#32), (0x004#13, 0x01#8 ++ 0x00#8 ++ BitVec.ofNat 16 s.params.maxLeds),
        (0x008#13, s.frameRegs.ctrl &&& 0x00000001#32), (0x010#13, s.irqEn &&& 0x03FF0100#32), (0x014#13, 0#32),
        (0x018#13, 0#28 ++ s.lastErr), (0x020#13, s.frameRegs.ledCount), (0x024#13, s.frameRegs.windowBits),
        (0x028#13, s.frameRegs.t0h), (0x02C#13, s.frameRegs.t0l), (0x030#13, s.frameRegs.t1h),
        (0x034#13, s.frameRegs.t1l), (0x038#13, s.frameRegs.resetLow), (0x03C#13, s.frameRegs.periodNs),
        (0x040#13, s.mapRegs.base), (0x044#13, s.mapRegs.size), (0x048#13, s.mapRegs.offs &&& 0x00FFFFFF#32),
        (0x04C#13, s.mapRegs.feat &&& 0x0000011F#32), (0x050#13, s.mapRegs.enMask), (0x060#13, s.frameCnt),
        (0x064#13, s.pulsesDone), (0x068#13, s.frameLen), (0x06C#13, s.rbDuty)] →
    exec (.hostRead off) s = .next { s with resp := some { err := false, rdata := some v } }

/-- R23, R24: STATUS bit by bit. -/
def Obligations.StatusReadsBitByBit : Prop :=
  ∀ s : State,
    ((readCsr s .status).toNat % 4 =
      match s.backend with | .uninitialized => 0 | .enabled => 1 | .transmitting => 2 | .disabled => 3) ∧
    ((readCsr s .status).getLsbD 2 = true ↔ (s.seq.phase ≠ .idle ∨ s.seq.relPend = true)) ∧
    (readCsr s .status).getLsbD 3 = s.seq.relPend ∧
    (readCsr s .status).getLsbD 4 = s.seq.periodValid ∧
    (∀ b, b = 8 ∨ (16 ≤ b ∧ b ≤ 25) → (readCsr s .status).getLsbD b = s.flags.getLsbD b) ∧
    (∀ b, (5 ≤ b ∧ b ≤ 7) ∨ (9 ≤ b ∧ b ≤ 15) ∨ 26 ≤ b → (readCsr s .status).getLsbD b = false)

/-- R132: an accepted write stores `data & mask` and nothing else changes. -/
def Obligations.HostWriteStoresThroughTheMask : Prop :=
  (∀ (s : State) (r : Csr) (data : Word),
    (r = .irqEn ∨ (r.inMapGroup = true ∧ s.backend = .uninitialized) ∨ (r.inFrameGroup = true ∧ s.busy = false)) →
    ∃ t, exec (.hostWrite r.offset data) s = .next t ∧
      t.resp = some { err := false, rdata := none } ∧
      readCsr t r = data &&&
        (match r with
          | .ctrl => 0x00000001#32 | .irqEn => 0x03FF0100#32 | .pwmOffs => 0x00FFFFFF#32 | .pwmFeat => 0x0000011F#32
          | _ => 0xFFFFFFFF#32) ∧
      (∀ r' : Csr, r' ≠ r → readCsr t r' = readCsr s r') ∧
      (∀ a, readByte t a = readByte s a) ∧
      t.backend = s.backend ∧ t.flags = s.flags ∧ t.lastErr = s.lastErr ∧ t.seq = s.seq ∧ t.trace = s.trace ∧
      t.params = s.params) ∧
  (∀ (s : State) (off : Offset) (data : Word), off.toNat % 4 = 0 → 0x1000 ≤ off.toNat →
    off.toNat < 0x1000 + 4 * s.params.maxLeds → s.busy = false →
    ∃ t, exec (.hostWrite off data) s = .next t ∧
      t.resp = some { err := false, rdata := none } ∧
      0x00#8 ++ readPixel t ((off.toNat - 0x1000) / 4) = data &&& 0x00FFFFFF#32)

/-- A pixel write's bytes and its frame: blue, green and red at the entry's own offsets, every other byte as before. -/
def Obligations.PixelWriteChangesItsEntryOnly : Prop :=
  ∀ (s : State) (off : Offset) (data : Word), off.toNat % 4 = 0 → 0x1000 ≤ off.toNat →
    off.toNat < 0x1000 + 4 * s.params.maxLeds → s.busy = false →
    ∃ t, exec (.hostWrite off data) s = .next t ∧
      readByte t off.toNat = data.extractLsb' 0 8 ∧
      readByte t (off.toNat + 1) = data.extractLsb' 8 8 ∧
      readByte t (off.toNat + 2) = data.extractLsb' 16 8 ∧
      (∀ a, a < off.toNat ∨ off.toNat + 3 ≤ a → readByte t a = readByte s a) ∧
      (∀ r : Csr, readCsr t r = readCsr s r) ∧
      t.flags = s.flags ∧ t.lastErr = s.lastErr ∧ t.seq = s.seq ∧ t.trace = s.trace ∧ t.params = s.params

/-- R126 steps 1 and 2: misaligned, unmapped and read-only offsets raise ADDR_ERR. -/
def Obligations.HostWriteBoundsAreChecked : Prop :=
  ∀ (s : State) (off : Offset) (data : Word),
    (off.toNat % 4 ≠ 0 → exec (.hostWrite off data) s = .next (rejectWrite .addrErr s)) ∧
    ((∀ r : Csr, off ≠ r.offset) → ¬ (0x1000 ≤ off.toNat ∧ off.toNat < 0x1000 + 4 * s.params.maxLeds) →
      exec (.hostWrite off data) s = .next (rejectWrite .addrErr s)) ∧
    (off = 0x000#13 ∨ off = 0x004#13 ∨ off = 0x018#13 ∨ off = 0x060#13 ∨ off = 0x064#13 ∨ off = 0x068#13 ∨
        off = 0x06C#13 →
      exec (.hostWrite off data) s = .next { s with
        flags := s.flags ||| 0x00010000#32, lastErr := 1#4, resp := some { err := true, rdata := none } })

/-- R130, R131: the two write locks. -/
def Obligations.WriteLocksHold : Prop :=
  ∀ (s : State) (data : Word),
    (∀ r : Csr, r = .pwmBase ∨ r = .pwmSize ∨ r = .pwmOffs ∨ r = .pwmFeat ∨ r = .pwmEnMask →
      (s.backend ≠ .uninitialized →
        exec (.hostWrite r.offset data) s = .next { s with
          flags := s.flags ||| 0x00080000#32, lastErr := 4#4, resp := some { err := true, rdata := none } }) ∧
      (s.backend = .uninitialized →
        ∃ t, exec (.hostWrite r.offset data) s = .next t ∧ t.resp = some { err := false, rdata := none })) ∧
    (∀ r : Csr, r = .ctrl ∨ r = .ledCount ∨ r = .windowBits ∨ r = .t0h ∨ r = .t0l ∨ r = .t1h ∨ r = .t1l ∨
        r = .resetLow ∨ r = .periodNs →
      (s.busy = true →
        exec (.hostWrite r.offset data) s = .next { s with
          flags := s.flags ||| 0x00400000#32, lastErr := 7#4, resp := some { err := true, rdata := none } }) ∧
      (s.busy = false →
        ∃ t, exec (.hostWrite r.offset data) s = .next t ∧ t.resp = some { err := false, rdata := none })) ∧
    (∀ off : Offset, off.toNat % 4 = 0 → 0x1000 ≤ off.toNat → off.toNat < 0x1000 + 4 * s.params.maxLeds →
      (s.busy = true →
        exec (.hostWrite off data) s = .next { s with
          flags := s.flags ||| 0x00400000#32, lastErr := 7#4, resp := some { err := true, rdata := none } }) ∧
      (s.busy = false →
        ∃ t, exec (.hostWrite off data) s = .next t ∧ t.resp = some { err := false, rdata := none }))

/-- R128: a write of STATUS clears the W1C bits written as 1, in every state. -/
def Obligations.StatusWriteClearsFlags : Prop :=
  ∀ (s : State) (data : Word),
    exec (.hostWrite 0x00C#13 data) s = .next { s with
      flags := s.flags &&& ~~~(data &&& 0x03FF0100#32), resp := some { err := false, rdata := none } }

/-- R124: an access that answers ERROR changes nothing but the flag and the code of one error. -/
def Obligations.RejectedAccessOnlyRaises : Prop :=
  ∀ (i : Instr) (s t : State), i.format ≠ .symbol → exec i s = .next t →
    (∃ v, t.resp = some { err := false, rdata := v }) ∨
    (∃ e : ErrCode, ∃ v, t = { s with
        flags := s.flags ||| (1#32 <<< (15 + e.code)), lastErr := BitVec.ofNat 4 e.code,
        resp := some { err := true, rdata := v } } ∧
      ((∃ off, i = .hostRead off) → v = some 0#32))

/-! ### Symbols and the pure functions -/

/-- The three symbols: the slot each loads, in naturals (R88 to R91, R97, R98). -/
def Obligations.SymbolsLoadTheirSlots : Prop :=
  ∀ (s : State) (slots : List Op),
    slots =
      (if s.mapRegs.feat.getLsbD 8 then
        (if s.frameRegs.ctrl.getLsbD 0 then [.rdCtrl, .wrCtrlLock, .wrDuty, .rdDuty, .wrCtrlUnlock]
          else [.rdCtrl, .wrCtrlLock, .wrDuty, .wrCtrlUnlock])
      else (if s.frameRegs.ctrl.getLsbD 0 then [.wrDuty, .rdDuty] else [.wrDuty])) →
    exec .symZero s = .next { s with
      symbolWire := none
      seq := { s.seq with
        wduty := BitVec.ofNat 32 ((s.frameRegs.t0h.toNat * s.params.pwmClkHz + 500000000) / 10 ^ 9)
        hold := ((s.frameRegs.t0h.toNat + s.frameRegs.t0l.toNat) * s.params.clkHz + 10 ^ 9 - 1) / 10 ^ 9
        hc := 0, ops := slots, phase := .slot } } ∧
    exec .symOne s = .next { s with
      symbolWire := none
      seq := { s.seq with
        wduty := BitVec.ofNat 32 ((s.frameRegs.t1h.toNat * s.params.pwmClkHz + 500000000) / 10 ^ 9)
        hold := ((s.frameRegs.t1h.toNat + s.frameRegs.t1l.toNat) * s.params.clkHz + 10 ^ 9 - 1) / 10 ^ 9
        hc := 0, ops := slots, phase := .slot } } ∧
    exec .symReset s = .next { s with
      symbolWire := none
      seq := { s.seq with
        wduty := 0#32
        hold := (s.frameRegs.resetLow.toNat * s.params.clkHz + 10 ^ 9 - 1) / 10 ^ 9
        hc := 0, ops := slots, phase := .slot } }

/-- R74: the reserved symbol code is a fault, never a pulse. -/
def Obligations.ReservedSymbolIsAFault : Prop :=
  ∀ s : State, exec .symReserved s = .fault .reservedSymbol

/-- R78, R79: color reorder as a number (red [23:16], green [15:8], blue [7:0] of the pixel), then the bits most significant
first. -/
def Obligations.ReorderThenSerializeMsbFirst : Prop :=
  ∀ p : Pixel,
    (grb p).toNat = (p.toNat / 256 % 256) * 2 ^ 16 + (p.toNat / 65536) * 2 ^ 8 + p.toNat % 256 ∧
    (encodePixel p).length = 24 ∧
    ∀ j, j < 24 → (encodePixel p)[j]? = some (if (grb p).getLsbD (23 - j) then .one else .zero)

/-- R80: the round-trip law, and that distinct pixels never give the same symbols. -/
def Obligations.PixelRoundTrip : Prop :=
  (∀ p : Pixel, (encodePixel p).length = 24 ∧ decodePixel (encodePixel p) = p) ∧
  (∀ p q : Pixel, encodePixel p = encodePixel q → p = q)

/-- R84: the length of the inserter's output, its largest value, that it fits 32 bits, and that a frame's start loads it
into FRAME_LEN. -/
def Obligations.FrameLengthLaw : Prop :=
  ∀ (px : Nat → Pixel) (leds w : Nat), 1 ≤ w →
    (frameSymbols px leds w).length = 24 * leds + max 1 ((24 * leds + w - 1) / w) ∧
    frameLength leds w = 24 * leds + max 1 ((24 * leds + w - 1) / w) ∧
    (∀ m, 1 ≤ m → m ≤ 1024 → leds ≤ m → frameLength leds w ≤ 48 * m ∧ 48 * m < 2 ^ 32) ∧
    frameLength leds 1 = max 1 (48 * leds) ∧
    (∀ (blank final : Bool) (s h : State), leds = s.frameRegs.ledCount.toNat → w = s.frameRegs.windowBits.toNat →
      (startFrame blank final s h).frameLen = BitVec.ofNat 32 (24 * leds + max 1 ((24 * leds + w - 1) / w)))

/-- R85: the closed form the sequencer uses equals the reset-gap inserter position by position, and reads no pixel entry
but 0 to L-1. -/
def Obligations.SymbolLookupEqualsTheFrame : Prop :=
  ∀ (px : Nat → Pixel) (leds w k : Nat), 1 ≤ w → k < frameLength leds w →
    (frameSymbols px leds w)[k]? = some (frameSym px leds w k) ∧
    ∀ px' : Nat → Pixel, (∀ i, i < leds → px' i = px i) → frameSym px' leds w k = frameSym px leds w k

/-- R86: every frame's last symbol is RESET. -/
def Obligations.FrameEndsInReset : Prop :=
  ∀ (px : Nat → Pixel) (leds w : Nat), 1 ≤ w →
    (frameSymbols px leds w).getLast? = some .reset ∧ frameSym px leds w (frameLength leds w - 1) = .reset

/-- A blanking frame is ZERO in every bit position, whatever pixel RAM holds (R82). -/
def Obligations.BlankingFrameIsAllZero : Prop :=
  ∀ (s : State) (leds : Nat), s.seq.blank = true →
    frameBits (framePixel s) leds = List.replicate (24 * leds) .zero ∧
    ∀ k, slotSymbol s k = .zero ∨ slotSymbol s k = .reset

/-- R89: the hold is the least number of cycles not shorter than the duration. -/
def Obligations.HoldCyclesAreLeast : Prop :=
  ∀ (p : Params) (ns : Nat),
    toCycles p ns = (ns * p.clkHz + 10 ^ 9 - 1) / 10 ^ 9 ∧
    (∀ c, ns * p.clkHz ≤ c * 10 ^ 9 ↔ toCycles p ns ≤ c) ∧
    toCycles p 0 = 0 ∧
    (p.legal → ns < 2 ^ 33 → ns * p.clkHz < 2 ^ 63)

/-- R90: register counts, nearest and half up, never above the nanoseconds. -/
def Obligations.CountsAreNearest : Prop :=
  ∀ (p : Params) (ns : Nat),
    toCounts p ns = (ns * p.pwmClkHz + 500000000) / 10 ^ 9 ∧
    (2 * 10 ^ 9 * toCounts p ns ≤ 2 * (ns * p.pwmClkHz) + 10 ^ 9 ∧
      2 * (ns * p.pwmClkHz) + 10 ^ 9 < 2 * 10 ^ 9 * (toCounts p ns + 1)) ∧
    (p.legal → toCounts p ns ≤ ns) ∧
    toCounts p 0 = 0 ∧ (p.pwmClkHz = 10 ^ 9 → toCounts p ns = ns)

/-! ### The sequencer -/

/-- The transaction each operation drives, and that none is driven without one (R93, R94). -/
def Obligations.DrivenTransactions : Prop :=
  ∀ (s : State) (aPeriod aDuty aCtrl lock : Word), noReset s →
    aPeriod = s.mapRegs.base + (0#24 ++ s.mapRegs.offs.extractLsb' 0 8) →
    aDuty = s.mapRegs.base + (0#24 ++ s.mapRegs.offs.extractLsb' 8 8) →
    aCtrl = s.mapRegs.base + (0#24 ++ s.mapRegs.offs.extractLsb' 16 8) →
    lock = BitVec.ofNat 32 (2 ^ (s.mapRegs.feat.toNat % 32)) →
    (s.seq.phase = .idle ∨ s.seq.ops = [] → dsPort s = none) ∧
    (s.seq.phase ≠ .idle → ∀ op rest, s.seq.ops = op :: rest →
      dsPort s = some (match op with
        | .wrPeriod =>
          .write aPeriod (BitVec.ofNat 32 ((s.frameRegs.periodNs.toNat * s.params.pwmClkHz + 500000000) / 10 ^ 9))
        | .rdCtrl => .read aCtrl
        | .wrCtrlEn => .write aCtrl (s.seq.cval ||| s.mapRegs.enMask)
        | .wrCtrlLock => .write aCtrl (s.seq.cval ||| lock)
        | .wrDuty => .write aDuty s.seq.wduty
        | .rdDuty => .read aDuty
        | .wrCtrlUnlock => .write aCtrl (s.seq.cval &&& ~~~lock)))

/-- The block reaches three words of the downstream space only, aligned, distinct and inside the channel's region (R53). -/
def Obligations.DownstreamAccessesStayInTheRegion : Prop :=
  (∀ m : MapRegs, m.ok = true →
    (m.aPeriod.toNat % 4 = 0 ∧ m.aDuty.toNat % 4 = 0 ∧ m.aCtrl.toNat % 4 = 0) ∧
    (m.aPeriod ≠ m.aDuty ∧ m.aPeriod ≠ m.aCtrl ∧ m.aDuty ≠ m.aCtrl) ∧
    (∀ a, a = m.aPeriod ∨ a = m.aDuty ∨ a = m.aCtrl →
      m.base.toNat ≤ a.toNat ∧ a.toNat + 4 ≤ m.base.toNat + m.size.toNat)) ∧
  (∀ (s : State) (q : DsReq), Inv s → dsPort s = some q →
    s.mapRegs.ok = true ∧
    ((∃ v, q = .write s.mapRegs.aPeriod v) ∨ (∃ v, q = .write s.mapRegs.aDuty v) ∨ (∃ v, q = .write s.mapRegs.aCtrl v) ∨
      q = .read s.mapRegs.aDuty ∨ q = .read s.mapRegs.aCtrl))

/-- Without an acknowledge the same transaction is driven again, and nothing of the frame moves but the slot's cycle
count: a device that never answers holds the block for ever (R94, R140). -/
def Obligations.UnacknowledgedTransactionWaits : Prop :=
  ∀ (s : State) (op : Op) (rest : List Op), Inv s → noReset s → s.seq.phase ≠ .idle → s.seq.ops = op :: rest →
    (dsNow s).ack = false →
    ∃ t, step s = .next t ∧
      t.seq.phase = s.seq.phase ∧ t.seq.ops = s.seq.ops ∧ t.backend = s.backend ∧ t.busy = true ∧
      t.pulsesDone = s.pulsesDone ∧ t.frameCnt = s.frameCnt ∧ t.trace = s.trace ∧
      opRequest t op = opRequest s op ∧
      t.seq.hc = (if s.seq.phase = .slot then s.seq.hc + 1 else s.seq.hc)

/-- With an acknowledge the head operation completes: it is recorded, removed, and has its completion effect (R93, R94,
R102). A value read with a write transaction goes nowhere. -/
def Obligations.AcknowledgeCompletesTheOperation : Prop :=
  ∀ (s t : State) (op : Op), noReset s → completes s op → step s = .next t →
    (∃ x, t.trace = x :: s.trace ∧ x.cycle = s.cycle ∧
      (match opRequest s op with
        | .write a v => x.write = true ∧ x.addr = a ∧ x.data = v
        | .read a => x.write = false ∧ x.addr = a ∧ x.data = (dsNow s).rdata)) ∧
    t.seq.cval = (if op = .rdCtrl then (dsNow s).rdata else s.seq.cval) ∧
    t.rbDuty = (if op = .rdDuty then (dsNow s).rdata else s.rbDuty) ∧
    (op = .rdDuty → (dsNow s).rdata ≠ s.seq.wduty → t.flags.getLsbD 25 = true) ∧
    (s.seq.ops.tail ≠ [] → t.seq.ops = s.seq.ops.tail ∧ t.seq.phase = s.seq.phase)

/-- R100, R101, R103: when a slot ends, what ends with it, and when the next one begins. -/
def Obligations.SlotHoldRule : Prop :=
  ∀ s t : State, Inv s → noReset s → s.seq.phase = .slot → step s = .next t →
    (¬ slotEnds s → t.seq.phase = .slot ∧ t.seq.hc = s.seq.hc + 1 ∧ t.pulsesDone = s.pulsesDone ∧
      t.seq.hold = s.seq.hold ∧ t.seq.wduty = s.seq.wduty) ∧
    (slotEnds s → t.pulsesDone.toNat = s.pulsesDone.toNat + 1 ∧
      (s.seq.hold < s.seq.hc + 1 → t.flags.getLsbD 24 = true) ∧
      (s.pulsesDone.toNat + 1 < s.frameLen.toNat →
        t.seq.phase = .slot ∧ t.seq.hc = 0 ∧ t.seq.ops = slotOps s ∧ t.backend = .transmitting ∧
        t.seq.wduty = pulseDuty s.params (toPulse s.frameRegs (slotSymbol s (s.pulsesDone.toNat + 1))) ∧
        t.seq.hold = pulseHold s.params (toPulse s.frameRegs (slotSymbol s (s.pulsesDone.toNat + 1)))) ∧
      (s.frameLen.toNat ≤ s.pulsesDone.toNat + 1 → t.seq.phase = .idle))

/-- R104: the edge that ends a frame. -/
def Obligations.FrameEndEffects : Prop :=
  ∀ s t : State, Inv s → noReset s → frameEnds s → step s = .next t →
    t.seq.phase = .idle ∧ t.seq.ops = [] ∧ t.seq.blank = false ∧ t.seq.final = false ∧
    t.backend = (if s.seq.final then .disabled else .enabled) ∧
    t.flags.getLsbD 8 = true ∧ t.frameCnt = s.frameCnt + 1#32

/-- R105: the SET_PERIOD phase, in a cycle without a host access field by field, and its end whatever the host does in that
cycle (R107, R108); PERIOD_VALID is set by that end alone and stays set until `rst` (R23, R115). -/
def Obligations.SetPeriodCompletes : Prop :=
  (∀ s : State, hostQuiet s → s.seq.phase = .setp → s.seq.ops = [.wrPeriod] →
    ((dsNow s).ack = true → ∃ x : DsTxn,
      x.write = true ∧ x.addr = s.mapRegs.aPeriod ∧ x.data = periodCounts s.params s.frameRegs ∧
      step s = .next { s with
        seq := { s.seq with ops := [], periodValid := true, phase := .idle }, trace := x :: s.trace, resp := none,
        cycle := s.cycle + 1, hostIn := s.hostIn.tail, dsIn := s.dsIn.tail }) ∧
    ((dsNow s).ack = false →
      step s = .next { s with
        resp := none, cycle := s.cycle + 1, hostIn := s.hostIn.tail, dsIn := s.dsIn.tail })) ∧
  (∀ s : State, noReset s → s.seq.phase = .setp → s.seq.ops = [.wrPeriod] → (dsNow s).ack = true →
    ∃ t, step s = .next t ∧ t.seq.periodValid = true ∧ t.seq.phase = .idle ∧ t.seq.ops = [] ∧ t.backend = s.backend) ∧
  (∀ s t : State, noReset s → step s = .next t →
    (s.seq.periodValid = true → t.seq.periodValid = true) ∧
    (s.seq.periodValid = false → t.seq.periodValid = true → s.seq.phase = .setp ∧ opsLeft s = []))

/-- R106: an idle cycle, without and with a pending release. -/
def Obligations.IdleCycleRunsThePendingRelease : Prop :=
  ∀ s t : State, noReset s → s.seq.phase = .idle → step s = .next t →
    dsPort s = none ∧ t.trace = s.trace ∧
    (s.seq.relPend = false → ∀ h, hostEdge s = .next h →
      t = { h with cycle := h.cycle + 1, hostIn := h.hostIn.tail, dsIn := h.dsIn.tail }) ∧
    (s.seq.relPend = true → s.backend = .enabled →
      t.seq.relPend = false ∧
      ((s.seq.periodValid = true ∧ cfgOk s.params s.frameRegs = true) →
        t.backend = .transmitting ∧ t.seq.phase = .pro ∧ t.seq.ops = [.wrPeriod, .rdCtrl, .wrCtrlEn] ∧
        t.seq.blank = true ∧ t.seq.final = true ∧ t.pulsesDone = 0#32 ∧
        t.frameLen = BitVec.ofNat 32 (frameLength s.frameRegs.leds s.frameRegs.window)) ∧
      (¬ (s.seq.periodValid = true ∧ cfgOk s.params s.frameRegs = true) →
        t.backend = .disabled ∧ t.seq.phase = .idle))

/-! ### Rules of the whole machine -/

/-- R135: the update of every W1C flag at the edge of every cycle. -/
def Obligations.FlagUpdatePerCycle : Prop :=
  ∀ s t : State, noReset s → step s = .next t → ∀ b, b = 8 ∨ (16 ≤ b ∧ b ≤ 25) →
    (t.flags.getLsbD b = true ↔
      (s.flags.getLsbD b = true ∧ ¬ ∃ data, hostWrites s 0x00C#13 data ∧ data.getLsbD b = true) ∨
      (b = 8 ∧ frameEnds s) ∨ (b = 24 ∧ slotOverruns s) ∨ (b = 25 ∧ readbackMismatches s) ∨
      (∃ v, t.resp = some { err := true, rdata := v } ∧ b = 15 + t.lastErr.toNat))

/-- R136: the update of LAST_ERR at the edge of every cycle, and that with the lock the two sequencer errors never meet. -/
def Obligations.LastErrPriority : Prop :=
  ∀ s t h : State, noReset s → hostEdge s = .next h → step s = .next t →
    (hostErred h = true → t.lastErr = h.lastErr) ∧
    (hostErred h = false → slotOverruns s → t.lastErr = 9#4) ∧
    (hostErred h = false → ¬ slotOverruns s → readbackMismatches s → t.lastErr = 10#4) ∧
    (hostErred h = false → ¬ slotOverruns s → ¬ readbackMismatches s → t.lastErr = s.lastErr) ∧
    (Inv s → s.mapRegs.feat.getLsbD 8 = true → ¬ (slotOverruns s ∧ readbackMismatches s))

/-- R141: the interrupt. -/
def Obligations.IrqIsTheEnabledFlags : Prop :=
  ∀ s : State, s.irq = true ↔
    (s.flags.getLsbD 8 = true ∧ s.irqEn.getLsbD 8 = true) ∨
    ∃ b, 16 ≤ b ∧ b ≤ 25 ∧ s.flags.getLsbD b = true ∧ s.irqEn.getLsbD b = true

/-- R121: every change of STATE, with the event that makes it. -/
def Obligations.StateChangesAreTheTable : Prop :=
  ∀ s t : State, Inv s → step s = .next t → t.backend ≠ s.backend →
    ((hostNow s).rst = true ∧ t.backend = .uninitialized) ∨
    (noReset s ∧
      ((s.backend = .uninitialized ∧ t.backend = .enabled ∧ hostWrites s 0x014#13 1#32 ∧ s.mapRegs.ok = true) ∨
       (s.backend = .enabled ∧ t.backend = .transmitting ∧
          (hostWrites s 0x014#13 3#32 ∨ hostWrites s 0x014#13 5#32 ∨ s.seq.relPend = true)) ∨
       (s.backend = .enabled ∧ t.backend = .disabled ∧
          (hostWrites s 0x014#13 4#32 ∨ hostWrites s 0x014#13 5#32 ∨ s.seq.relPend = true)) ∨
       (s.backend = .transmitting ∧ t.backend = .enabled ∧ frameEnds s ∧ s.seq.final = false) ∨
       (s.backend = .transmitting ∧ t.backend = .disabled ∧ frameEnds s ∧ s.seq.final = true)))

/-- R122: nothing but `rst` leaves DISABLED, no downstream transaction follows, and what each command does there. -/
def Obligations.DisabledIsTerminal : Prop :=
  ∀ s : State, Inv s → s.backend = .disabled →
    (∀ t, noReset s → step s = .next t →
      t.backend = .disabled ∧ dsPort s = none ∧ t.trace = s.trace ∧ t.seq = s.seq ∧ t.busy = false) ∧
    (∀ i : Instr, i = .cmdNop ∨ i = .cmdClose ∨ i = .cmdRelease →
      exec i s = .next { s with resp := some { err := false, rdata := none } }) ∧
    (∀ i : Instr, i = .cmdOpen ∨ i = .cmdSetPeriod ∨ i = .cmdTransmit →
      exec i s = .next { s with
        flags := s.flags ||| 0x00080000#32, lastErr := 4#4, resp := some { err := true, rdata := none } }) ∧
    (∀ off data, off.toNat % 4 = 0 → 0x1000 ≤ off.toNat → off.toNat < 0x1000 + 4 * s.params.maxLeds →
      exec (.hostWrite off data) s = .next (acceptWrite (writePixel ((off.toNat - 0x1000) / 4) (data.extractLsb' 0 24) s))) ∧
    ((hostNow s).rst = true → ∃ t, step s = .next t ∧ t.backend = .uninitialized)

/-- The map group cannot change after OPEN, and while BUSY no host access changes what a frame reads (R43, R53, R61, R130,
R131). -/
def Obligations.InputsOfAFrameAreFrozen : Prop :=
  ∀ s t : State, noReset s → step s = .next t →
    (s.backend ≠ .uninitialized → t.mapRegs = s.mapRegs) ∧
    (s.busy = true → t.frameRegs = s.frameRegs ∧ (∀ a, readByte t a = readByte s a))

/-- FRAME_CNT counts frame ends and nothing else, modulo 2^32 (R37). -/
def Obligations.FrameCounterCountsFrameEnds : Prop :=
  (∀ p : Params, (State.resetWith p).frameCnt = 0#32) ∧
  ∀ s t : State, step s = .next t →
    ((hostNow s).rst = true → t.frameCnt = 0#32) ∧
    (noReset s → frameEnds s → t.frameCnt.toNat = (s.frameCnt.toNat + 1) % 2 ^ 32) ∧
    (noReset s → ¬ frameEnds s → t.frameCnt = s.frameCnt)

/-- RB_DUTY changes only with a readback of a frame with CTRL.READBACK = 1 (R40). -/
def Obligations.RbDutyIsTheLastReadback : Prop :=
  (∀ p : Params, (State.resetWith p).rbDuty = 0#32) ∧
  ∀ s t : State, Inv s → noReset s → step s = .next t →
    (completes s .rdDuty → t.rbDuty = (dsNow s).rdata) ∧
    (¬ completes s .rdDuty → t.rbDuty = s.rbDuty) ∧
    (s.frameRegs.ctrl.getLsbD 0 = false → t.rbDuty = s.rbDuty) ∧
    (s.backend ≠ .transmitting → t.rbDuty = s.rbDuty)

/-- The error input `d_err` never changes the block (R55). -/
def Obligations.DeviceErrorInputIsIgnored : Prop :=
  ∀ (s : State) (d : DsIn) (e : Bool) (rest : List DsIn),
    step { s with dsIn := { d with err := e } :: rest } = step { s with dsIn := d :: rest }

/-- Pixel RAM keeps its canonical form in every step, from every state. -/
def Obligations.PixelRamStaysCanonical : Prop :=
  ∀ s t : State, Memory.wf s.pix = true → step s = .next t → Memory.wf t.pix = true

/-- The invariant holds of the reset state of every legal build. -/
def Obligations.InvHoldsAtReset : Prop :=
  ∀ p : Params, p.legal → Inv (State.resetWith p)

/-- Every step keeps the invariant. -/
def Obligations.InvIsKeptByEveryStep : Prop :=
  ∀ s t : State, Inv s → step s = .next t → Inv t

/-- From a state that meets the invariant the machine never stops. -/
def Obligations.InvStatesNeverStop : Prop :=
  ∀ s : State, Inv s → ∃ t, step s = .next t

/-! ### Runs -/

/-- R100: with every transaction acknowledged at once, a slot lasts `max(hold, operations)` cycles. -/
def Obligations.SlotLastsItsHoldOrItsOperations : Prop :=
  ∀ (s : State) (n : Nat), Inv s → s.seq.phase = .slot → s.seq.hc = 0 → s.seq.ops = slotOps s →
    (∀ p ∈ s.hostIn, p = { rst := false, acc := none }) →
    n = max s.seq.hold (slotOps s).length → n ≤ s.dsIn.length → (∀ d ∈ s.dsIn.take n, d.ack = true) →
    (∀ m, m < n → ∃ t, core.run m s = .next t ∧ t.seq.phase = .slot ∧ t.pulsesDone = s.pulsesDone ∧ t.seq.hc = m) ∧
    (∃ t, core.run n s = .next t ∧ t.pulsesDone.toNat = s.pulsesDone.toNat + 1 ∧
      t.trace.length = s.trace.length + (slotOps s).length)

/-- R109: with no downstream wait, a frame of N slots accepted in cycle t ends at the edge ending cycle
t + 3 + Σ max(hold(k), operations). -/
def Obligations.FrameTakesTheCyclesOfItsSlots : Prop :=
  ∀ (s : State) (rest : List HostIn) (total : Nat), Inv s →
    s.hostIn = { rst := false, acc := some (accessWord true 0x014#13 0x00000003#32) } :: rest →
    (∀ p ∈ rest, p = { rst := false, acc := none }) →
    s.backend = .enabled → s.busy = false → s.seq.periodValid = true → cfgOk s.params s.frameRegs = true →
    total = ((List.range (frameLength s.frameRegs.leds s.frameRegs.window)).map (fun k =>
      max (pulseHold s.params (toPulse s.frameRegs
        (frameSym (readPixel s) s.frameRegs.leds s.frameRegs.window k))) (slotOps s).length)).sum →
    4 + total ≤ s.dsIn.length → (∀ d ∈ s.dsIn.take (4 + total), d.ack = true) →
    (∀ m, 1 ≤ m → m < 4 + total → ∃ t, core.run m s = .next t ∧ t.backend = .transmitting ∧ t.busy = true) ∧
    (∃ t, core.run (4 + total) s = .next t ∧ t.backend = .enabled ∧ t.busy = false ∧
      t.flags.getLsbD 8 = true ∧ t.frameCnt = s.frameCnt + 1#32 ∧
      t.trace.length = s.trace.length + 3 +
        frameLength s.frameRegs.leds s.frameRegs.window * (slotOps s).length)
end

