-- ==== Sys2Proof/Laws/State.lean ====
section
/-! SUPPORT. One lemma per field per named update of the state, each true by unfolding the update once, so that no later
proof unfolds a record update. -/

namespace Sys2Proof.Machine

/-! `acceptWrite`. -/

@[simp] theorem acceptWrite_params (s : State) : (acceptWrite s).params = s.params := rfl
@[simp] theorem acceptWrite_backend (s : State) : (acceptWrite s).backend = s.backend := rfl
@[simp] theorem acceptWrite_flags (s : State) : (acceptWrite s).flags = s.flags := rfl
@[simp] theorem acceptWrite_irqEn (s : State) : (acceptWrite s).irqEn = s.irqEn := rfl
@[simp] theorem acceptWrite_lastErr (s : State) : (acceptWrite s).lastErr = s.lastErr := rfl
@[simp] theorem acceptWrite_frameRegs (s : State) : (acceptWrite s).frameRegs = s.frameRegs := rfl
@[simp] theorem acceptWrite_mapRegs (s : State) : (acceptWrite s).mapRegs = s.mapRegs := rfl
@[simp] theorem acceptWrite_frameCnt (s : State) : (acceptWrite s).frameCnt = s.frameCnt := rfl
@[simp] theorem acceptWrite_pulsesDone (s : State) : (acceptWrite s).pulsesDone = s.pulsesDone := rfl
@[simp] theorem acceptWrite_frameLen (s : State) : (acceptWrite s).frameLen = s.frameLen := rfl
@[simp] theorem acceptWrite_rbDuty (s : State) : (acceptWrite s).rbDuty = s.rbDuty := rfl
@[simp] theorem acceptWrite_pix (s : State) : (acceptWrite s).pix = s.pix := rfl
@[simp] theorem acceptWrite_seq (s : State) : (acceptWrite s).seq = s.seq := rfl
@[simp] theorem acceptWrite_resp (s : State) : (acceptWrite s).resp = some { err := false, rdata := none } := rfl
@[simp] theorem acceptWrite_trace (s : State) : (acceptWrite s).trace = s.trace := rfl
@[simp] theorem acceptWrite_cycle (s : State) : (acceptWrite s).cycle = s.cycle := rfl
@[simp] theorem acceptWrite_hostIn (s : State) : (acceptWrite s).hostIn = s.hostIn := rfl
@[simp] theorem acceptWrite_dsIn (s : State) : (acceptWrite s).dsIn = s.dsIn := rfl
@[simp] theorem acceptWrite_symbolWire (s : State) : (acceptWrite s).symbolWire = s.symbolWire := rfl

/-! `acceptRead`. -/

@[simp] theorem acceptRead_params (v : Word) (s : State) : (acceptRead v s).params = s.params := rfl
@[simp] theorem acceptRead_backend (v : Word) (s : State) : (acceptRead v s).backend = s.backend := rfl
@[simp] theorem acceptRead_flags (v : Word) (s : State) : (acceptRead v s).flags = s.flags := rfl
@[simp] theorem acceptRead_irqEn (v : Word) (s : State) : (acceptRead v s).irqEn = s.irqEn := rfl
@[simp] theorem acceptRead_lastErr (v : Word) (s : State) : (acceptRead v s).lastErr = s.lastErr := rfl
@[simp] theorem acceptRead_frameRegs (v : Word) (s : State) : (acceptRead v s).frameRegs = s.frameRegs := rfl
@[simp] theorem acceptRead_mapRegs (v : Word) (s : State) : (acceptRead v s).mapRegs = s.mapRegs := rfl
@[simp] theorem acceptRead_frameCnt (v : Word) (s : State) : (acceptRead v s).frameCnt = s.frameCnt := rfl
@[simp] theorem acceptRead_pulsesDone (v : Word) (s : State) : (acceptRead v s).pulsesDone = s.pulsesDone := rfl
@[simp] theorem acceptRead_frameLen (v : Word) (s : State) : (acceptRead v s).frameLen = s.frameLen := rfl
@[simp] theorem acceptRead_rbDuty (v : Word) (s : State) : (acceptRead v s).rbDuty = s.rbDuty := rfl
@[simp] theorem acceptRead_pix (v : Word) (s : State) : (acceptRead v s).pix = s.pix := rfl
@[simp] theorem acceptRead_seq (v : Word) (s : State) : (acceptRead v s).seq = s.seq := rfl
@[simp] theorem acceptRead_resp (v : Word) (s : State) :
    (acceptRead v s).resp =
      some { err := false, rdata := some v } := rfl
@[simp] theorem acceptRead_trace (v : Word) (s : State) : (acceptRead v s).trace = s.trace := rfl
@[simp] theorem acceptRead_cycle (v : Word) (s : State) : (acceptRead v s).cycle = s.cycle := rfl
@[simp] theorem acceptRead_hostIn (v : Word) (s : State) : (acceptRead v s).hostIn = s.hostIn := rfl
@[simp] theorem acceptRead_dsIn (v : Word) (s : State) : (acceptRead v s).dsIn = s.dsIn := rfl
@[simp] theorem acceptRead_symbolWire (v : Word) (s : State) : (acceptRead v s).symbolWire = s.symbolWire := rfl

/-! `rejectWrite`. -/

@[simp] theorem rejectWrite_params (e : ErrCode) (s : State) : (rejectWrite e s).params = s.params := rfl
@[simp] theorem rejectWrite_backend (e : ErrCode) (s : State) : (rejectWrite e s).backend = s.backend := rfl
@[simp] theorem rejectWrite_flags (e : ErrCode) (s : State) : (rejectWrite e s).flags = s.flags ||| e.flag := rfl
@[simp] theorem rejectWrite_irqEn (e : ErrCode) (s : State) : (rejectWrite e s).irqEn = s.irqEn := rfl
@[simp] theorem rejectWrite_lastErr (e : ErrCode) (s : State) :
    (rejectWrite e s).lastErr =
      BitVec.ofNat 4 e.code := rfl
@[simp] theorem rejectWrite_frameRegs (e : ErrCode) (s : State) : (rejectWrite e s).frameRegs = s.frameRegs := rfl
@[simp] theorem rejectWrite_mapRegs (e : ErrCode) (s : State) : (rejectWrite e s).mapRegs = s.mapRegs := rfl
@[simp] theorem rejectWrite_frameCnt (e : ErrCode) (s : State) : (rejectWrite e s).frameCnt = s.frameCnt := rfl
@[simp] theorem rejectWrite_pulsesDone (e : ErrCode) (s : State) : (rejectWrite e s).pulsesDone = s.pulsesDone := rfl
@[simp] theorem rejectWrite_frameLen (e : ErrCode) (s : State) : (rejectWrite e s).frameLen = s.frameLen := rfl
@[simp] theorem rejectWrite_rbDuty (e : ErrCode) (s : State) : (rejectWrite e s).rbDuty = s.rbDuty := rfl
@[simp] theorem rejectWrite_pix (e : ErrCode) (s : State) : (rejectWrite e s).pix = s.pix := rfl
@[simp] theorem rejectWrite_seq (e : ErrCode) (s : State) : (rejectWrite e s).seq = s.seq := rfl
@[simp] theorem rejectWrite_resp (e : ErrCode) (s : State) :
    (rejectWrite e s).resp =
      some { err := true, rdata := none } := rfl
@[simp] theorem rejectWrite_trace (e : ErrCode) (s : State) : (rejectWrite e s).trace = s.trace := rfl
@[simp] theorem rejectWrite_cycle (e : ErrCode) (s : State) : (rejectWrite e s).cycle = s.cycle := rfl
@[simp] theorem rejectWrite_hostIn (e : ErrCode) (s : State) : (rejectWrite e s).hostIn = s.hostIn := rfl
@[simp] theorem rejectWrite_dsIn (e : ErrCode) (s : State) : (rejectWrite e s).dsIn = s.dsIn := rfl
@[simp] theorem rejectWrite_symbolWire (e : ErrCode) (s : State) : (rejectWrite e s).symbolWire = s.symbolWire := rfl

/-! `rejectRead`. -/

@[simp] theorem rejectRead_params (e : ErrCode) (s : State) : (rejectRead e s).params = s.params := rfl
@[simp] theorem rejectRead_backend (e : ErrCode) (s : State) : (rejectRead e s).backend = s.backend := rfl
@[simp] theorem rejectRead_flags (e : ErrCode) (s : State) : (rejectRead e s).flags = s.flags ||| e.flag := rfl
@[simp] theorem rejectRead_irqEn (e : ErrCode) (s : State) : (rejectRead e s).irqEn = s.irqEn := rfl
@[simp] theorem rejectRead_lastErr (e : ErrCode) (s : State) : (rejectRead e s).lastErr = BitVec.ofNat 4 e.code := rfl
@[simp] theorem rejectRead_frameRegs (e : ErrCode) (s : State) : (rejectRead e s).frameRegs = s.frameRegs := rfl
@[simp] theorem rejectRead_mapRegs (e : ErrCode) (s : State) : (rejectRead e s).mapRegs = s.mapRegs := rfl
@[simp] theorem rejectRead_frameCnt (e : ErrCode) (s : State) : (rejectRead e s).frameCnt = s.frameCnt := rfl
@[simp] theorem rejectRead_pulsesDone (e : ErrCode) (s : State) : (rejectRead e s).pulsesDone = s.pulsesDone := rfl
@[simp] theorem rejectRead_frameLen (e : ErrCode) (s : State) : (rejectRead e s).frameLen = s.frameLen := rfl
@[simp] theorem rejectRead_rbDuty (e : ErrCode) (s : State) : (rejectRead e s).rbDuty = s.rbDuty := rfl
@[simp] theorem rejectRead_pix (e : ErrCode) (s : State) : (rejectRead e s).pix = s.pix := rfl
@[simp] theorem rejectRead_seq (e : ErrCode) (s : State) : (rejectRead e s).seq = s.seq := rfl
@[simp] theorem rejectRead_resp (e : ErrCode) (s : State) :
    (rejectRead e s).resp =
      some { err := true, rdata := some 0#32 } := rfl
@[simp] theorem rejectRead_trace (e : ErrCode) (s : State) : (rejectRead e s).trace = s.trace := rfl
@[simp] theorem rejectRead_cycle (e : ErrCode) (s : State) : (rejectRead e s).cycle = s.cycle := rfl
@[simp] theorem rejectRead_hostIn (e : ErrCode) (s : State) : (rejectRead e s).hostIn = s.hostIn := rfl
@[simp] theorem rejectRead_dsIn (e : ErrCode) (s : State) : (rejectRead e s).dsIn = s.dsIn := rfl
@[simp] theorem rejectRead_symbolWire (e : ErrCode) (s : State) : (rejectRead e s).symbolWire = s.symbolWire := rfl

/-! `raiseSeq`. -/

@[simp] theorem raiseSeq_params (e : ErrCode) (h : State) : (raiseSeq e h).params = h.params := rfl
@[simp] theorem raiseSeq_backend (e : ErrCode) (h : State) : (raiseSeq e h).backend = h.backend := rfl
@[simp] theorem raiseSeq_flags (e : ErrCode) (h : State) : (raiseSeq e h).flags = h.flags ||| e.flag := rfl
@[simp] theorem raiseSeq_irqEn (e : ErrCode) (h : State) : (raiseSeq e h).irqEn = h.irqEn := rfl
@[simp] theorem raiseSeq_lastErr (e : ErrCode) (h : State) :
    (raiseSeq e h).lastErr =
      if hostErred h then h.lastErr else BitVec.ofNat 4 e.code := rfl
@[simp] theorem raiseSeq_frameRegs (e : ErrCode) (h : State) : (raiseSeq e h).frameRegs = h.frameRegs := rfl
@[simp] theorem raiseSeq_mapRegs (e : ErrCode) (h : State) : (raiseSeq e h).mapRegs = h.mapRegs := rfl
@[simp] theorem raiseSeq_frameCnt (e : ErrCode) (h : State) : (raiseSeq e h).frameCnt = h.frameCnt := rfl
@[simp] theorem raiseSeq_pulsesDone (e : ErrCode) (h : State) : (raiseSeq e h).pulsesDone = h.pulsesDone := rfl
@[simp] theorem raiseSeq_frameLen (e : ErrCode) (h : State) : (raiseSeq e h).frameLen = h.frameLen := rfl
@[simp] theorem raiseSeq_rbDuty (e : ErrCode) (h : State) : (raiseSeq e h).rbDuty = h.rbDuty := rfl
@[simp] theorem raiseSeq_pix (e : ErrCode) (h : State) : (raiseSeq e h).pix = h.pix := rfl
@[simp] theorem raiseSeq_seq (e : ErrCode) (h : State) : (raiseSeq e h).seq = h.seq := rfl
@[simp] theorem raiseSeq_resp (e : ErrCode) (h : State) : (raiseSeq e h).resp = h.resp := rfl
@[simp] theorem raiseSeq_trace (e : ErrCode) (h : State) : (raiseSeq e h).trace = h.trace := rfl
@[simp] theorem raiseSeq_cycle (e : ErrCode) (h : State) : (raiseSeq e h).cycle = h.cycle := rfl
@[simp] theorem raiseSeq_hostIn (e : ErrCode) (h : State) : (raiseSeq e h).hostIn = h.hostIn := rfl
@[simp] theorem raiseSeq_dsIn (e : ErrCode) (h : State) : (raiseSeq e h).dsIn = h.dsIn := rfl
@[simp] theorem raiseSeq_symbolWire (e : ErrCode) (h : State) : (raiseSeq e h).symbolWire = h.symbolWire := rfl

/-! `clearFlags`. -/

@[simp] theorem clearFlags_params (d : Word) (s : State) : (clearFlags d s).params = s.params := rfl
@[simp] theorem clearFlags_backend (d : Word) (s : State) : (clearFlags d s).backend = s.backend := rfl
@[simp] theorem clearFlags_flags (d : Word) (s : State) :
    (clearFlags d s).flags =
      s.flags &&& ~~~(d &&& w1cMask) := rfl
@[simp] theorem clearFlags_irqEn (d : Word) (s : State) : (clearFlags d s).irqEn = s.irqEn := rfl
@[simp] theorem clearFlags_lastErr (d : Word) (s : State) : (clearFlags d s).lastErr = s.lastErr := rfl
@[simp] theorem clearFlags_frameRegs (d : Word) (s : State) : (clearFlags d s).frameRegs = s.frameRegs := rfl
@[simp] theorem clearFlags_mapRegs (d : Word) (s : State) : (clearFlags d s).mapRegs = s.mapRegs := rfl
@[simp] theorem clearFlags_frameCnt (d : Word) (s : State) : (clearFlags d s).frameCnt = s.frameCnt := rfl
@[simp] theorem clearFlags_pulsesDone (d : Word) (s : State) : (clearFlags d s).pulsesDone = s.pulsesDone := rfl
@[simp] theorem clearFlags_frameLen (d : Word) (s : State) : (clearFlags d s).frameLen = s.frameLen := rfl
@[simp] theorem clearFlags_rbDuty (d : Word) (s : State) : (clearFlags d s).rbDuty = s.rbDuty := rfl
@[simp] theorem clearFlags_pix (d : Word) (s : State) : (clearFlags d s).pix = s.pix := rfl
@[simp] theorem clearFlags_seq (d : Word) (s : State) : (clearFlags d s).seq = s.seq := rfl
@[simp] theorem clearFlags_resp (d : Word) (s : State) : (clearFlags d s).resp = s.resp := rfl
@[simp] theorem clearFlags_trace (d : Word) (s : State) : (clearFlags d s).trace = s.trace := rfl
@[simp] theorem clearFlags_cycle (d : Word) (s : State) : (clearFlags d s).cycle = s.cycle := rfl
@[simp] theorem clearFlags_hostIn (d : Word) (s : State) : (clearFlags d s).hostIn = s.hostIn := rfl
@[simp] theorem clearFlags_dsIn (d : Word) (s : State) : (clearFlags d s).dsIn = s.dsIn := rfl
@[simp] theorem clearFlags_symbolWire (d : Word) (s : State) : (clearFlags d s).symbolWire = s.symbolWire := rfl

/-! `writePixel`. -/

@[simp] theorem writePixel_params (i : Nat) (v : Pixel) (s : State) : (writePixel i v s).params = s.params := rfl
@[simp] theorem writePixel_backend (i : Nat) (v : Pixel) (s : State) : (writePixel i v s).backend = s.backend := rfl
@[simp] theorem writePixel_flags (i : Nat) (v : Pixel) (s : State) : (writePixel i v s).flags = s.flags := rfl
@[simp] theorem writePixel_irqEn (i : Nat) (v : Pixel) (s : State) : (writePixel i v s).irqEn = s.irqEn := rfl
@[simp] theorem writePixel_lastErr (i : Nat) (v : Pixel) (s : State) : (writePixel i v s).lastErr = s.lastErr := rfl
@[simp] theorem writePixel_frameRegs (i : Nat) (v : Pixel) (s : State) :
    (writePixel i v s).frameRegs =
      s.frameRegs := rfl
@[simp] theorem writePixel_mapRegs (i : Nat) (v : Pixel) (s : State) : (writePixel i v s).mapRegs = s.mapRegs := rfl
@[simp] theorem writePixel_frameCnt (i : Nat) (v : Pixel) (s : State) :
    (writePixel i v s).frameCnt =
      s.frameCnt := rfl
@[simp] theorem writePixel_pulsesDone (i : Nat) (v : Pixel) (s : State) :
    (writePixel i v s).pulsesDone =
      s.pulsesDone := rfl
@[simp] theorem writePixel_frameLen (i : Nat) (v : Pixel) (s : State) :
    (writePixel i v s).frameLen =
      s.frameLen := rfl
@[simp] theorem writePixel_rbDuty (i : Nat) (v : Pixel) (s : State) : (writePixel i v s).rbDuty = s.rbDuty := rfl
@[simp] theorem writePixel_seq (i : Nat) (v : Pixel) (s : State) : (writePixel i v s).seq = s.seq := rfl
@[simp] theorem writePixel_resp (i : Nat) (v : Pixel) (s : State) : (writePixel i v s).resp = s.resp := rfl
@[simp] theorem writePixel_trace (i : Nat) (v : Pixel) (s : State) : (writePixel i v s).trace = s.trace := rfl
@[simp] theorem writePixel_cycle (i : Nat) (v : Pixel) (s : State) : (writePixel i v s).cycle = s.cycle := rfl
@[simp] theorem writePixel_hostIn (i : Nat) (v : Pixel) (s : State) : (writePixel i v s).hostIn = s.hostIn := rfl
@[simp] theorem writePixel_dsIn (i : Nat) (v : Pixel) (s : State) : (writePixel i v s).dsIn = s.dsIn := rfl
@[simp] theorem writePixel_symbolWire (i : Nat) (v : Pixel) (s : State) :
    (writePixel i v s).symbolWire =
      s.symbolWire := rfl

/-! `noAccess`. -/

@[simp] theorem noAccess_params (s : State) : (noAccess s).params = s.params := rfl
@[simp] theorem noAccess_backend (s : State) : (noAccess s).backend = s.backend := rfl
@[simp] theorem noAccess_flags (s : State) : (noAccess s).flags = s.flags := rfl
@[simp] theorem noAccess_irqEn (s : State) : (noAccess s).irqEn = s.irqEn := rfl
@[simp] theorem noAccess_lastErr (s : State) : (noAccess s).lastErr = s.lastErr := rfl
@[simp] theorem noAccess_frameRegs (s : State) : (noAccess s).frameRegs = s.frameRegs := rfl
@[simp] theorem noAccess_mapRegs (s : State) : (noAccess s).mapRegs = s.mapRegs := rfl
@[simp] theorem noAccess_frameCnt (s : State) : (noAccess s).frameCnt = s.frameCnt := rfl
@[simp] theorem noAccess_pulsesDone (s : State) : (noAccess s).pulsesDone = s.pulsesDone := rfl
@[simp] theorem noAccess_frameLen (s : State) : (noAccess s).frameLen = s.frameLen := rfl
@[simp] theorem noAccess_rbDuty (s : State) : (noAccess s).rbDuty = s.rbDuty := rfl
@[simp] theorem noAccess_pix (s : State) : (noAccess s).pix = s.pix := rfl
@[simp] theorem noAccess_seq (s : State) : (noAccess s).seq = s.seq := rfl
@[simp] theorem noAccess_resp (s : State) : (noAccess s).resp = none := rfl
@[simp] theorem noAccess_trace (s : State) : (noAccess s).trace = s.trace := rfl
@[simp] theorem noAccess_cycle (s : State) : (noAccess s).cycle = s.cycle := rfl
@[simp] theorem noAccess_hostIn (s : State) : (noAccess s).hostIn = s.hostIn := rfl
@[simp] theorem noAccess_dsIn (s : State) : (noAccess s).dsIn = s.dsIn := rfl
@[simp] theorem noAccess_symbolWire (s : State) : (noAccess s).symbolWire = s.symbolWire := rfl

/-! `nextCycle`. -/

@[simp] theorem nextCycle_params (s : State) : (nextCycle s).params = s.params := rfl
@[simp] theorem nextCycle_backend (s : State) : (nextCycle s).backend = s.backend := rfl
@[simp] theorem nextCycle_flags (s : State) : (nextCycle s).flags = s.flags := rfl
@[simp] theorem nextCycle_irqEn (s : State) : (nextCycle s).irqEn = s.irqEn := rfl
@[simp] theorem nextCycle_lastErr (s : State) : (nextCycle s).lastErr = s.lastErr := rfl
@[simp] theorem nextCycle_frameRegs (s : State) : (nextCycle s).frameRegs = s.frameRegs := rfl
@[simp] theorem nextCycle_mapRegs (s : State) : (nextCycle s).mapRegs = s.mapRegs := rfl
@[simp] theorem nextCycle_frameCnt (s : State) : (nextCycle s).frameCnt = s.frameCnt := rfl
@[simp] theorem nextCycle_pulsesDone (s : State) : (nextCycle s).pulsesDone = s.pulsesDone := rfl
@[simp] theorem nextCycle_frameLen (s : State) : (nextCycle s).frameLen = s.frameLen := rfl
@[simp] theorem nextCycle_rbDuty (s : State) : (nextCycle s).rbDuty = s.rbDuty := rfl
@[simp] theorem nextCycle_pix (s : State) : (nextCycle s).pix = s.pix := rfl
@[simp] theorem nextCycle_seq (s : State) : (nextCycle s).seq = s.seq := rfl
@[simp] theorem nextCycle_resp (s : State) : (nextCycle s).resp = s.resp := rfl
@[simp] theorem nextCycle_trace (s : State) : (nextCycle s).trace = s.trace := rfl
@[simp] theorem nextCycle_cycle (s : State) : (nextCycle s).cycle = s.cycle + 1 := rfl
@[simp] theorem nextCycle_hostIn (s : State) : (nextCycle s).hostIn = s.hostIn.tail := rfl
@[simp] theorem nextCycle_dsIn (s : State) : (nextCycle s).dsIn = s.dsIn.tail := rfl
@[simp] theorem nextCycle_symbolWire (s : State) : (nextCycle s).symbolWire = s.symbolWire := rfl

/-! `startFrame`. -/

@[simp] theorem startFrame_params (b f : Bool) (s h : State) : (startFrame b f s h).params = h.params := rfl
@[simp] theorem startFrame_backend (b f : Bool) (s h : State) : (startFrame b f s h).backend = .transmitting := rfl
@[simp] theorem startFrame_flags (b f : Bool) (s h : State) : (startFrame b f s h).flags = h.flags := rfl
@[simp] theorem startFrame_irqEn (b f : Bool) (s h : State) : (startFrame b f s h).irqEn = h.irqEn := rfl
@[simp] theorem startFrame_lastErr (b f : Bool) (s h : State) : (startFrame b f s h).lastErr = h.lastErr := rfl
@[simp] theorem startFrame_frameRegs (b f : Bool) (s h : State) : (startFrame b f s h).frameRegs = h.frameRegs := rfl
@[simp] theorem startFrame_mapRegs (b f : Bool) (s h : State) : (startFrame b f s h).mapRegs = h.mapRegs := rfl
@[simp] theorem startFrame_frameCnt (b f : Bool) (s h : State) : (startFrame b f s h).frameCnt = h.frameCnt := rfl
@[simp] theorem startFrame_pulsesDone (b f : Bool) (s h : State) : (startFrame b f s h).pulsesDone = 0#32 := rfl
@[simp] theorem startFrame_frameLen (b f : Bool) (s h : State) :
    (startFrame b f s h).frameLen =
      BitVec.ofNat 32 (frameLength s.frameRegs.leds s.frameRegs.window) := rfl
@[simp] theorem startFrame_rbDuty (b f : Bool) (s h : State) : (startFrame b f s h).rbDuty = h.rbDuty := rfl
@[simp] theorem startFrame_pix (b f : Bool) (s h : State) : (startFrame b f s h).pix = h.pix := rfl
@[simp] theorem startFrame_seq (b f : Bool) (s h : State) :
    (startFrame b f s h).seq =
      { h.seq with blank := b, final := f, ops := prologueOps, phase := .pro } := rfl
@[simp] theorem startFrame_resp (b f : Bool) (s h : State) : (startFrame b f s h).resp = h.resp := rfl
@[simp] theorem startFrame_trace (b f : Bool) (s h : State) : (startFrame b f s h).trace = h.trace := rfl
@[simp] theorem startFrame_cycle (b f : Bool) (s h : State) : (startFrame b f s h).cycle = h.cycle := rfl
@[simp] theorem startFrame_hostIn (b f : Bool) (s h : State) : (startFrame b f s h).hostIn = h.hostIn := rfl
@[simp] theorem startFrame_dsIn (b f : Bool) (s h : State) : (startFrame b f s h).dsIn = h.dsIn := rfl
@[simp] theorem startFrame_symbolWire (b f : Bool) (s h : State) :
    (startFrame b f s h).symbolWire =
      h.symbolWire := rfl

/-! `loadSlot`. -/

@[simp] theorem loadSlot_params (s h : State) (u : Pulse) : (loadSlot s h u).params = h.params := rfl
@[simp] theorem loadSlot_backend (s h : State) (u : Pulse) : (loadSlot s h u).backend = h.backend := rfl
@[simp] theorem loadSlot_flags (s h : State) (u : Pulse) : (loadSlot s h u).flags = h.flags := rfl
@[simp] theorem loadSlot_irqEn (s h : State) (u : Pulse) : (loadSlot s h u).irqEn = h.irqEn := rfl
@[simp] theorem loadSlot_lastErr (s h : State) (u : Pulse) : (loadSlot s h u).lastErr = h.lastErr := rfl
@[simp] theorem loadSlot_frameRegs (s h : State) (u : Pulse) : (loadSlot s h u).frameRegs = h.frameRegs := rfl
@[simp] theorem loadSlot_mapRegs (s h : State) (u : Pulse) : (loadSlot s h u).mapRegs = h.mapRegs := rfl
@[simp] theorem loadSlot_frameCnt (s h : State) (u : Pulse) : (loadSlot s h u).frameCnt = h.frameCnt := rfl
@[simp] theorem loadSlot_pulsesDone (s h : State) (u : Pulse) : (loadSlot s h u).pulsesDone = h.pulsesDone := rfl
@[simp] theorem loadSlot_frameLen (s h : State) (u : Pulse) : (loadSlot s h u).frameLen = h.frameLen := rfl
@[simp] theorem loadSlot_rbDuty (s h : State) (u : Pulse) : (loadSlot s h u).rbDuty = h.rbDuty := rfl
@[simp] theorem loadSlot_pix (s h : State) (u : Pulse) : (loadSlot s h u).pix = h.pix := rfl
@[simp] theorem loadSlot_seq (s h : State) (u : Pulse) :
    (loadSlot s h u).seq =
      { h.seq with wduty := pulseDuty s.params u, hold := pulseHold s.params u, hc := 0, ops := slotOps s, phase := .slot } := rfl
@[simp] theorem loadSlot_resp (s h : State) (u : Pulse) : (loadSlot s h u).resp = h.resp := rfl
@[simp] theorem loadSlot_trace (s h : State) (u : Pulse) : (loadSlot s h u).trace = h.trace := rfl
@[simp] theorem loadSlot_cycle (s h : State) (u : Pulse) : (loadSlot s h u).cycle = h.cycle := rfl
@[simp] theorem loadSlot_hostIn (s h : State) (u : Pulse) : (loadSlot s h u).hostIn = h.hostIn := rfl
@[simp] theorem loadSlot_dsIn (s h : State) (u : Pulse) : (loadSlot s h u).dsIn = h.dsIn := rfl
@[simp] theorem loadSlot_symbolWire (s h : State) (u : Pulse) : (loadSlot s h u).symbolWire = none := rfl

/-! `frameEnd`. -/

@[simp] theorem frameEnd_params (s h : State) : (frameEnd s h).params = h.params := rfl
@[simp] theorem frameEnd_backend (s h : State) :
    (frameEnd s h).backend =
      if s.seq.final then .disabled else .enabled := rfl
@[simp] theorem frameEnd_flags (s h : State) : (frameEnd s h).flags = h.flags ||| doneFlag := rfl
@[simp] theorem frameEnd_irqEn (s h : State) : (frameEnd s h).irqEn = h.irqEn := rfl
@[simp] theorem frameEnd_lastErr (s h : State) : (frameEnd s h).lastErr = h.lastErr := rfl
@[simp] theorem frameEnd_frameRegs (s h : State) : (frameEnd s h).frameRegs = h.frameRegs := rfl
@[simp] theorem frameEnd_mapRegs (s h : State) : (frameEnd s h).mapRegs = h.mapRegs := rfl
@[simp] theorem frameEnd_frameCnt (s h : State) : (frameEnd s h).frameCnt = s.frameCnt + 1#32 := rfl
@[simp] theorem frameEnd_pulsesDone (s h : State) : (frameEnd s h).pulsesDone = h.pulsesDone := rfl
@[simp] theorem frameEnd_frameLen (s h : State) : (frameEnd s h).frameLen = h.frameLen := rfl
@[simp] theorem frameEnd_rbDuty (s h : State) : (frameEnd s h).rbDuty = h.rbDuty := rfl
@[simp] theorem frameEnd_pix (s h : State) : (frameEnd s h).pix = h.pix := rfl
@[simp] theorem frameEnd_seq (s h : State) :
    (frameEnd s h).seq =
      { h.seq with phase := .idle, ops := [], blank := false, final := false } := rfl
@[simp] theorem frameEnd_resp (s h : State) : (frameEnd s h).resp = h.resp := rfl
@[simp] theorem frameEnd_trace (s h : State) : (frameEnd s h).trace = h.trace := rfl
@[simp] theorem frameEnd_cycle (s h : State) : (frameEnd s h).cycle = h.cycle := rfl
@[simp] theorem frameEnd_hostIn (s h : State) : (frameEnd s h).hostIn = h.hostIn := rfl
@[simp] theorem frameEnd_dsIn (s h : State) : (frameEnd s h).dsIn = h.dsIn := rfl
@[simp] theorem frameEnd_symbolWire (s h : State) : (frameEnd s h).symbolWire = h.symbolWire := rfl

end Sys2Proof.Machine
end

