-- ==== Sys2Proof/Laws/Memory.lean ====
section
/-! SUPPORT. Pixel RAM: read after write, everything else left alone, and the canonical form kept. -/

namespace Sys2Proof.Machine

theorem lookup_write_same (a : Nat) (b : Byte) (m : List Host.Cell) :
    Memory.lookup a (Memory.write a b m) = some b := by
  induction m with
  | nil => simp [Memory.write, Memory.lookup]
  | cons c m ih =>
    unfold Memory.write
    split
    · simp [Memory.lookup]
    · split
      · simp [Memory.lookup]
      · rename_i h
        simp [Memory.lookup, ih, Ne.symm h]

theorem lookup_write_other {a a' : Nat} (h : a' ≠ a) (b : Byte) (m : List Host.Cell) :
    Memory.lookup a' (Memory.write a b m) = Memory.lookup a' m := by
  induction m with
  | nil => simp [Memory.write, Memory.lookup, Ne.symm h]
  | cons c m ih =>
    unfold Memory.write
    split
    · simp [Memory.lookup, Ne.symm h]
    · split
      · rename_i hc
        simp [Memory.lookup, Ne.symm h, ← hc]
      · simp [Memory.lookup, ih]

/-- The head of a written list is the written offset or the old head. -/
theorem write_head_ge {a k : Nat} {b : Byte} {m : List Host.Cell} (ha : k < a)
    (hm : ∀ c ∈ m.head?, k < c.1) : ∀ c ∈ (Memory.write a b m).head?, k < c.1 := by
  cases m with
  | nil => simp [Memory.write, ha]
  | cons c m =>
    unfold Memory.write
    split
    · simp [ha]
    · split
      · simp [ha]
      · simpa using hm

theorem wf_cons (c : Host.Cell) (m : List Host.Cell) :
    Memory.wf (c :: m) = true ↔ (∀ d ∈ m.head?, c.1 < d.1) ∧ Memory.wf m = true := by
  cases m with
  | nil => simp [Memory.wf]
  | cons d m => simp [Memory.wf]

/-- A write keeps the canonical form. -/
theorem write_wf (a : Nat) (b : Byte) {m : List Host.Cell} (h : Memory.wf m = true) :
    Memory.wf (Memory.write a b m) = true := by
  induction m with
  | nil => simp [Memory.write, Memory.wf]
  | cons c m ih =>
    have hc := (wf_cons c m).1 h
    unfold Memory.write
    split
    · rename_i hlt
      exact (wf_cons _ _).2 ⟨by simpa using hlt, h⟩
    · split
      · rename_i heq
        exact (wf_cons _ _).2 ⟨by simpa [heq] using hc.1, hc.2⟩
      · rename_i h1 h2
        exact (wf_cons _ _).2 ⟨write_head_ge (by omega) hc.1, ih hc.2⟩

/-- What a write lists: the written byte and what was listed before. -/
theorem mem_write {a : Nat} {b : Byte} {m : List Host.Cell} {c : Host.Cell} (h : c ∈ Memory.write a b m) :
    c = (a, b) ∨ c ∈ m := by
  induction m with
  | nil => simpa [Memory.write] using h
  | cons d m ih =>
    unfold Memory.write at h
    split at h
    · simpa using h
    · split at h
      · rcases List.mem_cons.1 h with h | h
        · exact .inl h
        · exact .inr (List.mem_cons_of_mem _ h)
      · rcases List.mem_cons.1 h with h | h
        · exact .inr (h ▸ List.mem_cons_self)
        · rcases ih h with h | h
          · exact .inl h
          · exact .inr (List.mem_cons_of_mem _ h)

theorem writePixel_wf (i : Nat) (v : Pixel) {s : State} (h : Memory.wf s.pix = true) :
    Memory.wf (writePixel i v s).pix = true :=
  write_wf _ _ (write_wf _ _ (write_wf _ _ h))

/-- Reading a byte depends on pixel RAM alone. -/
theorem readByte_congr {s t : State} (h : t.pix = s.pix) (a : Nat) : readByte t a = readByte s a := by
  simp [readByte, h]

theorem readPixel_congr {s t : State} (h : t.pix = s.pix) (i : Nat) : readPixel t i = readPixel s i := by
  simp [readPixel, readByte_congr h]

/-- One byte after a pixel write. -/
theorem readByte_writePixel (i : Nat) (v : Pixel) (s : State) (a : Nat) :
    readByte (writePixel i v s) a =
      if a = pixAddr i then v.extractLsb' 0 8
      else if a = pixAddr i + 1 then v.extractLsb' 8 8
      else if a = pixAddr i + 2 then v.extractLsb' 16 8
      else readByte s a := by
  unfold readByte writePixel
  by_cases h2 : a = pixAddr i + 2
  · subst h2; simp [lookup_write_same]
  · simp only [lookup_write_other h2]
    by_cases h1 : a = pixAddr i + 1
    · subst h1; simp [lookup_write_same]
    · simp only [lookup_write_other h1]
      by_cases h0 : a = pixAddr i
      · subst h0; simp [lookup_write_same]
      · simp [lookup_write_other h0, h0, h1, h2]

/-- A u24 is its three bytes. -/
theorem pixel_of_bytes (v : Pixel) : v.extractLsb' 16 8 ++ v.extractLsb' 8 8 ++ v.extractLsb' 0 8 = v := by
  apply BitVec.eq_of_getLsbD_eq
  intro k hk
  simp only [BitVec.getLsbD_append, BitVec.getLsbD_extractLsb']
  by_cases h0 : k < 8
  · simp [h0]
  · by_cases h1 : k - 8 < 8
    · simp [h0, h1, show 8 + (k - 8) = k by omega]
    · simp [h0, h1, show k - 8 - 8 < 8 by omega, show 16 + (k - 8 - 8) = k by omega]

/-- An entry after a pixel write. -/
theorem readPixel_writePixel (i j : Nat) (v : Pixel) (s : State) :
    readPixel (writePixel i v s) j = if j = i then v else readPixel s j := by
  unfold readPixel
  simp only [readByte_writePixel, pixAddr]
  by_cases h : j = i
  · subst h
    simp [pixel_of_bytes]
  · have h' : ∀ x, x < 3 → ∀ y, y < 3 → pixBase + 4 * j + x ≠ pixBase + 4 * i + y := by omega
    have e : ∀ x, x < 3 → ∀ (y : Nat), y < 3 → (pixBase + 4 * j + x = pixBase + 4 * i + y) = False := by
      intro x hx y hy; exact eq_false (h' x hx y hy)
    have e0 := e 0 (by omega); have e1 := e 1 (by omega); have e2 := e 2 (by omega)
    have z := fun x hx => e x hx 0 (by omega)
    simp only [Nat.add_zero] at z e0
    simp only [z 1 (by omega), z 2 (by omega), e0 1 (by omega), e0 2 (by omega), e1 1 (by omega), e1 2 (by omega),
      e2 1 (by omega), e2 2 (by omega), if_false, if_neg h]
    rw [if_neg (by omega)]

end Sys2Proof.Machine
end

