-- ==== Sys2Proof/Laws/Host.lean ====
section
/-! SUPPORT. The host window's decode, and everything the edge of a host access can do. -/

namespace Sys2Proof.Machine

/-! The CSR table. -/

theorem csrAt_offset (r : Csr) : csrAt r.offset = some r := by cases r <;> decide

theorem mem_csrAll (r : Csr) : r ∈ Csr.all := by cases r <;> decide

theorem offset_of_csrAt {off : Offset} {r : Csr} (h : csrAt off = some r) : off = r.offset := by
  have := List.find?_some h
  simpa using (of_decide_eq_true this).symm

theorem not_offset_of_csrAt {off : Offset} (h : csrAt off = none) (r : Csr) : off ≠ r.offset := by
  have := List.find?_eq_none.1 h r (mem_csrAll r)
  intro e
  exact this (by simp [e])

theorem csrAt_none {off : Offset} (h : ∀ r : Csr, off ≠ r.offset) : csrAt off = none := by
  cases e : csrAt off with
  | none => rfl
  | some r => exact absurd (offset_of_csrAt e) (h r)

theorem offset_lt (r : Csr) : r.offset.toNat < 0x1000 := by cases r <;> decide

theorem aligned_offset (r : Csr) : aligned r.offset = true := by cases r <;> decide

theorem aligned_iff (off : Offset) : aligned off = true ↔ off.toNat % 4 = 0 := by
  simp [aligned, ← BitVec.toNat_inj]

@[simp] theorem targetOf_offset (p : Params) (r : Csr) : targetOf p r.offset = .csr r := by
  simp [targetOf, csrAt_offset]

theorem targetOf_pixel {p : Params} {off : Offset} (h1 : 0x1000 ≤ off.toNat)
    (h2 : off.toNat < 0x1000 + 4 * p.maxLeds) : targetOf p off = .pixel ((off.toNat - 0x1000) / 4) := by
  have h : csrAt off = none := csrAt_none fun r e => by
    have := offset_lt r
    rw [← e] at this
    omega
  simp [targetOf, h, pixBase, h1, h2]

theorem targetOf_unmapped {p : Params} {off : Offset} (h : ∀ r : Csr, off ≠ r.offset)
    (h2 : ¬ (0x1000 ≤ off.toNat ∧ off.toNat < 0x1000 + 4 * p.maxLeds)) : targetOf p off = .unmapped := by
  rw [targetOf, csrAt_none h]
  exact if_neg h2

theorem targetOf_csr_iff {p : Params} {off : Offset} {r : Csr} : targetOf p off = .csr r ↔ off = r.offset := by
  constructor
  · intro h
    unfold targetOf at h
    split at h
    · cases h; exact offset_of_csrAt ‹_›
    · split at h <;> cases h
  · rintro rfl; simp

theorem targetOf_pixel_lt {p : Params} {off : Offset} {i : Nat} (h : targetOf p off = .pixel i) :
    i < p.maxLeds := by
  unfold targetOf at h
  split at h
  · cases h
  · split at h
    · cases h
      rename_i hr
      simp only [pixBase] at *
      omega
    · cases h

/-! A store. -/

theorem readCsr_storeCsr_same {r : Csr} (h : r.inFrameGroup = true ∨ r.inMapGroup = true ∨ r = .irqEn) (d : Word)
    (s : State) : readCsr (storeCsr r d s) r = d &&& r.mask := by
  cases r <;> simp_all [readCsr, storeCsr, Csr.inFrameGroup, Csr.inMapGroup, Csr.mask, BitVec.and_assoc]

theorem readCsr_storeCsr_other {r r' : Csr} (h : r' ≠ r) (d : Word) (s : State) :
    readCsr (storeCsr r d s) r' = readCsr s r' := by
  cases r <;> cases r' <;> first | rfl | exact absurd rfl h

theorem storeCsr_keeps (r : Csr) (d : Word) (s : State) :
    (storeCsr r d s).params = s.params ∧ (storeCsr r d s).backend = s.backend ∧ (storeCsr r d s).flags = s.flags ∧
    (storeCsr r d s).lastErr = s.lastErr ∧ (storeCsr r d s).frameCnt = s.frameCnt ∧
    (storeCsr r d s).pulsesDone = s.pulsesDone ∧ (storeCsr r d s).frameLen = s.frameLen ∧
    (storeCsr r d s).rbDuty = s.rbDuty ∧ (storeCsr r d s).pix = s.pix ∧ (storeCsr r d s).seq = s.seq ∧
    (storeCsr r d s).trace = s.trace ∧ (storeCsr r d s).cycle = s.cycle ∧ (storeCsr r d s).hostIn = s.hostIn ∧
    (storeCsr r d s).dsIn = s.dsIn ∧ (storeCsr r d s).symbolWire = s.symbolWire := by
  cases r <;> simp [storeCsr]

theorem storeCsr_frameRegs {r : Csr} (h : r.inFrameGroup = false) (d : Word) (s : State) :
    (storeCsr r d s).frameRegs = s.frameRegs := by
  cases r <;> simp_all [storeCsr, Csr.inFrameGroup]

theorem storeCsr_mapRegs {r : Csr} (h : r.inMapGroup = false) (d : Word) (s : State) :
    (storeCsr r d s).mapRegs = s.mapRegs := by
  cases r <;> simp_all [storeCsr, Csr.inMapGroup]

theorem storeCsr_irqEn {r : Csr} (h : r ≠ .irqEn) (d : Word) (s : State) : (storeCsr r d s).irqEn = s.irqEn := by
  cases r <;> simp_all [storeCsr]

/-! The commands as host writes. -/

theorem decodeCmd_cases (w : Word) (P : Instr → Prop) (h0 : w = 0#32 → P .cmdNop) (h1 : w = 1#32 → P .cmdOpen)
    (h2 : w = 2#32 → P .cmdSetPeriod) (h3 : w = 3#32 → P .cmdTransmit) (h4 : w = 4#32 → P .cmdClose)
    (h5 : w = 5#32 → P .cmdRelease) (h6 : P (.cmdReserved w)) : P (decodeCmd w) := by
  unfold decodeCmd
  repeat' split
  all_goals first | (apply h0; assumption) | (apply h1; assumption) | (apply h2; assumption) | (apply h3; assumption) | (apply h4; assumption) | (apply h5; assumption) | exact h6

/-- What the edge of a host access or command can do to the state (R111 to R132), one case per effect. The word that
causes a change of STATE stands in its case. -/
inductive HostEffect (i : Instr) (s : State) : State → Prop where
  /-- Accepted, with nothing but a response. -/
  | answer (v : Option Word) : HostEffect i s { s with resp := some { err := false, rdata := v } }
  /-- Rejected (R124). -/
  | reject (e : ErrCode) (v : Option Word) (hv : ∀ off, i = .hostRead off → v = some 0#32) : HostEffect i s
      { s with flags := s.flags ||| e.flag, lastErr := BitVec.ofNat 4 e.code, resp := some { err := true, rdata := v } }
  /-- A write of STATUS (R128). -/
  | clear (d : Word) (hi : i = .hostWrite 0x00C#13 d) : HostEffect i s (acceptWrite (clearFlags d s))
  /-- A write of a register (R129 to R132). -/
  | store (r : Csr) (d : Word) (hr : r = .irqEn ∨ r.inMapGroup = true ∨ r.inFrameGroup = true)
      (hm : r.inMapGroup = true → s.backend = .uninitialized) (hf : r.inFrameGroup = true → s.busy = false) :
      HostEffect i s (acceptWrite (storeCsr r d s))
  /-- A write of a pixel entry (R131, R132). -/
  | pixel (k : Nat) (v : Pixel) (hk : k < s.params.maxLeds) (hb : s.busy = false) :
      HostEffect i s (acceptWrite (writePixel k v s))
  /-- OPEN (R114). -/
  | opened (hi : i = .cmdOpen ∨ i = .hostWrite 0x014#13 1#32) (hb : s.busy = false) (hs : s.backend = .uninitialized)
      (hm : s.mapRegs.ok = true) : HostEffect i s (acceptWrite { s with backend := .enabled })
  /-- SET_PERIOD (R115). -/
  | periodStarted (hb : s.busy = false) (hs : s.backend = .enabled) :
      HostEffect i s (acceptWrite { s with seq := { s.seq with ops := [.wrPeriod], phase := .setp } })
  /-- TRANSMIT (R117). -/
  | transmitted (hi : i = .cmdTransmit ∨ i = .hostWrite 0x014#13 3#32) (hb : s.busy = false) (hs : s.backend = .enabled)
      (hp : s.seq.periodValid = true) (hc : cfgOk s.params s.frameRegs = true) :
      HostEffect i s (acceptWrite (startFrame false false s s))
  /-- CLOSE (R118). -/
  | closed (hi : i = .cmdClose ∨ i = .hostWrite 0x014#13 4#32) (hb : s.busy = false) (hs : s.backend = .enabled) :
      HostEffect i s (acceptWrite { s with backend := .disabled })
  /-- RELEASE while busy (R120). -/
  | releasePended (hs : s.backend = .enabled ∨ s.backend = .transmitting) (hb : s.busy = true)
      (hr : s.seq.relPend = false) (hf : s.seq.final = false) :
      HostEffect i s (acceptWrite { s with seq := { s.seq with relPend := true } })
  /-- RELEASE while idle (R119, R120). -/
  | released (hi : i = .cmdRelease ∨ i = .hostWrite 0x014#13 5#32) (hs : s.backend = .enabled ∨ s.backend = .transmitting)
      (hb : s.busy = false) : HostEffect i s (acceptWrite (releaseAction s s))

theorem HostEffect.rejectWrite {i : Instr} {s : State} (e : ErrCode) (hi : ∀ off, i ≠ .hostRead off) :
    HostEffect i s (Machine.rejectWrite e s) := .reject e none (fun off h => absurd h (hi off))

theorem HostEffect.acceptWrite {i : Instr} {s : State} : HostEffect i s (Machine.acceptWrite s) := .answer none

/-- A command's effect, run by the command itself or by the write of its word to CMD. -/
theorem cmd_effect {i : Instr} {s t : State} {c : Instr} (hf : c.format = .cmd)
    (hi : i = c ∨ ∃ w, i = .hostWrite 0x014#13 w ∧ c = decodeCmd w) (h : exec c s = .next t) :
    HostEffect i s t := by
  have hr : ∀ off, i ≠ .hostRead off := by
    rintro off rfl
    rcases hi with hi | ⟨w, hi, -⟩
    · subst hi; simp [Instr.format] at hf
    · cases hi
  have word : ∀ (k : Word), decodeCmd k = c → (∀ w, decodeCmd w = c → w = k) → i = c ∨ i = .hostWrite 0x014#13 k := by
    intro k _ hk
    rcases hi with hi | ⟨w, hi, hc⟩
    · exact .inl hi
    · exact .inr (by rw [hi, hk w hc.symm])
  cases c with
  | cmdNop => cases h; exact .acceptWrite
  | cmdOpen =>
    have hw := word 1#32 rfl (fun w => decodeCmd_cases w (fun c => c = .cmdOpen → w = 1#32)
      (by simp) (by simp) (by simp) (by simp) (by simp) (by simp) (by simp))
    cases h
    unfold whenIdleIn
    split
    · exact .rejectWrite _ hr
    · split
      · split
        · exact .opened hw (by simpa using ‹¬ s.busy = true›) ‹_› ‹_›
        · exact .rejectWrite _ hr
      · exact .rejectWrite _ hr
  | cmdSetPeriod =>
    cases h
    unfold whenIdleIn
    split
    · exact .rejectWrite _ hr
    · split
      · exact .periodStarted (by simpa using ‹¬ s.busy = true›) ‹_›
      · exact .rejectWrite _ hr
  | cmdTransmit =>
    have hw := word 3#32 rfl (fun w => decodeCmd_cases w (fun c => c = .cmdTransmit → w = 3#32)
      (by simp) (by simp) (by simp) (by simp) (by simp) (by simp) (by simp))
    cases h
    unfold whenIdleIn
    split
    · exact .rejectWrite _ hr
    · split
      · split
        · exact .rejectWrite _ hr
        · split
          · exact .rejectWrite _ hr
          · exact .transmitted hw (by simpa using ‹¬ s.busy = true›) ‹_› (by simpa using ‹¬ (!s.seq.periodValid) = true›)
              (by simpa using ‹¬ (!cfgOk s.params s.frameRegs) = true›)
      · exact .rejectWrite _ hr
  | cmdClose =>
    have hw := word 4#32 rfl (fun w => decodeCmd_cases w (fun c => c = .cmdClose → w = 4#32)
      (by simp) (by simp) (by simp) (by simp) (by simp) (by simp) (by simp))
    cases h
    split
    · exact .rejectWrite _ hr
    · split
      · exact .acceptWrite
      · split
        · exact .closed hw (by simpa using ‹¬ s.busy = true›) ‹_›
        · exact .rejectWrite _ hr
  | cmdRelease =>
    have hw := word 5#32 rfl (fun w => decodeCmd_cases w (fun c => c = .cmdRelease → w = 5#32)
      (by simp) (by simp) (by simp) (by simp) (by simp) (by simp) (by simp))
    have open_case : ∀ hs : s.backend = .enabled ∨ s.backend = .transmitting, HostEffect i s
        (if s.busy then
          if s.seq.relPend || s.seq.final then Machine.acceptWrite s
          else Machine.acceptWrite { s with seq := { s.seq with relPend := true } }
        else Machine.acceptWrite (releaseAction s s)) := by
      intro hs
      split
      · split
        · exact .acceptWrite
        · have := ‹¬ (s.seq.relPend || s.seq.final) = true›
          simp only [Bool.or_eq_true, not_or, Bool.not_eq_true] at this
          exact .releasePended hs ‹_› this.1 this.2
      · exact .released hw hs (by simpa using ‹¬ s.busy = true›)
    cases h
    split
    · exact .rejectWrite _ hr
    · exact .acceptWrite
    · exact open_case (.inl ‹_›)
    · exact open_case (.inr ‹_›)
  | cmdReserved w => cases h; exact .rejectWrite _ hr
  | _ => simp [Instr.format] at hf

/-- A write to CMD runs the command its word decodes to. -/
theorem cmdWrite_eq_exec (w : Word) (s : State) : cmdWrite w s = exec (decodeCmd w) s := by
  unfold cmdWrite decodeCmd
  repeat' split
  all_goals rfl

theorem decodeCmd_format (w : Word) : (decodeCmd w).format = .cmd := by
  unfold decodeCmd
  repeat' split
  all_goals rfl

/-- Everything a command or an access can do. -/
theorem exec_effect {i : Instr} {s t : State} (hf : i.format ≠ .symbol) (h : exec i s = .next t) :
    HostEffect i s t := by
  cases hfi : i.format with
  | symbol => exact absurd hfi hf
  | cmd => exact cmd_effect hfi (.inl rfl) h
  | hostAcc =>
    cases i with
    | hostRead off =>
      cases h
      split
      · exact .reject _ _ (fun _ _ => rfl)
      · split
        · exact .answer _
        · exact .answer _
        · exact .reject _ _ (fun _ _ => rfl)
    | hostWrite off d =>
      have hr : ∀ o, Instr.hostWrite off d ≠ .hostRead o := by simp
      simp only [exec, execHostWrite] at h
      split at h
      · cases h; exact .rejectWrite _ hr
      · split at h
        · rename_i r ht
          have ho := targetOf_csr_iff.1 ht
          have group : ∀ r : Csr, (r = .irqEn ∨ r.inMapGroup = true ∨ r.inFrameGroup = true) →
              HostEffect (.hostWrite off d) s (writeReg r d s) := by
            intro r hg
            unfold writeReg
            split
            · exact .rejectWrite _ hr
            · split
              · exact .rejectWrite _ hr
              · rename_i h1 h2
                refine .store r d hg (fun hm => ?_) (fun hfr => ?_)
                · simpa [hm] using h1
                · simpa [hfr] using h2
          unfold writeCsr at h
          split at h
          · cases h; exact .rejectWrite _ hr
          · cases r <;> simp only [Csr.readOnly, not_true_eq_false, Bool.false_eq_true] at * <;>
              first
              | exact cmd_effect (decodeCmd_format d) (.inr ⟨d, by rw [ho]; rfl, rfl⟩) (cmdWrite_eq_exec d s ▸ h)
              | (cases h; exact .clear d (by rw [ho]; rfl))
              | (cases h; exact group _ (by decide))
        · cases h
          unfold writePix
          split
          · exact .rejectWrite _ hr
          · exact .pixel _ _ (targetOf_pixel_lt ‹_›) (by simpa using ‹¬ s.busy = true›)
        · cases h; exact .rejectWrite _ hr
    | _ => simp [Instr.format] at hfi

/-- Commands and accesses always answer a next state. -/
theorem exec_completes {i : Instr} (hf : i.format ≠ .symbol) (s : State) : ∃ t, exec i s = .next t := by
  have hc : ∀ c : Instr, c.format = .cmd → ∃ t, exec c s = .next t := by
    intro c hc
    cases c <;> simp [Instr.format] at hc <;> exact ⟨_, rfl⟩
  cases i with
  | hostRead off => exact ⟨_, rfl⟩
  | hostWrite off d =>
    simp only [exec, execHostWrite]
    split
    · exact ⟨_, rfl⟩
    · split
      · unfold writeCsr
        split
        · exact ⟨_, rfl⟩
        · split
          · rw [cmdWrite_eq_exec]; exact hc _ (decodeCmd_format d)
          · exact ⟨_, rfl⟩
          · exact ⟨_, rfl⟩
      · exact ⟨_, rfl⟩
      · exact ⟨_, rfl⟩
  | symZero | symOne | symReset | symReserved => simp [Instr.format] at hf
  | _ => exact hc _ rfl

theorem decodeAccess_format (a : AccessWord) : (decodeAccess a).format ≠ .symbol := by
  unfold decodeAccess
  split <;> simp [Instr.format]

end Sys2Proof.Machine
end

