-- ==== Sys2Proof/Laws/PerInstr.lean ====
section
/-! SUPPORT. Statements about every instruction as syntax, one lemma per constructor. -/

namespace Sys2Proof.Laws.EncodeWidth

/-- An instruction's bytes are as many as its format has (R68, log 11), and reading them back finds its encoded word, with
no bit set above the format's width. -/
def Statement (i : Instr) : Prop :=
  (encodeBytes i).length = formatBytes i.format ∧ decodeCodeBytes (encodeBytes i) = .ok (encode i)

theorem bytesOfNat_length (k n : Nat) : (bytesOfNat k n).length = k := by
  induction k generalizing n with
  | zero => rfl
  | succ k ih => simp [bytesOfNat, ih]

theorem natOfBytes_bytesOfNat (k n : Nat) : natOfBytes (bytesOfNat k n) = n % 256 ^ k := by
  induction k generalizing n with
  | zero => simp [bytesOfNat, natOfBytes, Nat.mod_one]
  | succ k ih =>
    have e : (BitVec.ofNat 8 n).toNat = n % 256 := by simp
    rw [bytesOfNat, natOfBytes, ih, e, Nat.pow_succ, Nat.mul_comm (256 ^ k), Nat.mod_mul]

/-- Reading back a word's bytes finds the word, in each of the three formats. -/
theorem decodeCodeBytes_codeBytes (c : Code) : decodeCodeBytes (codeBytes c) = .ok c := by
  cases c with
  | symbol code =>
    have h := code.isLt
    have e : code.toNat % 256 = code.toNat := Nat.mod_eq_of_lt (by omega)
    simp [decodeCodeBytes, codeBytes, bytesOfNat_length, natOfBytes_bytesOfNat, e, h]
  | cmd word =>
    have h := word.isLt
    have e : word.toNat % 256 ^ 4 = word.toNat := Nat.mod_eq_of_lt (by omega)
    simp only [decodeCodeBytes, codeBytes, bytesOfNat_length, natOfBytes_bytesOfNat, e, BitVec.ofNat_toNat,
      BitVec.setWidth_eq]
  | access acc =>
    have h := acc.isLt
    have e : acc.toNat % 256 ^ 6 = acc.toNat := Nat.mod_eq_of_lt (by omega)
    simp only [decodeCodeBytes, codeBytes, bytesOfNat_length, natOfBytes_bytesOfNat, e, h, if_true, BitVec.ofNat_toNat,
      BitVec.setWidth_eq]

theorem of_length {i : Instr} (h : (encodeBytes i).length = formatBytes i.format) : Statement i :=
  ⟨h, decodeCodeBytes_codeBytes _⟩

theorem cmdNop : Statement .cmdNop := of_length rfl
theorem cmdOpen : Statement .cmdOpen := of_length rfl
theorem cmdSetPeriod : Statement .cmdSetPeriod := of_length rfl
theorem cmdTransmit : Statement .cmdTransmit := of_length rfl
theorem cmdClose : Statement .cmdClose := of_length rfl
theorem cmdRelease : Statement .cmdRelease := of_length rfl
theorem cmdReserved (word : Word) : Statement (.cmdReserved word) := of_length rfl
theorem symZero : Statement .symZero := of_length rfl
theorem symOne : Statement .symOne := of_length rfl
theorem symReset : Statement .symReset := of_length rfl
theorem symReserved : Statement .symReserved := of_length rfl
theorem hostRead (off : Offset) : Statement (.hostRead off) := of_length rfl
theorem hostWrite (off : Offset) (data : Word) : Statement (.hostWrite off data) := of_length rfl

end Sys2Proof.Laws.EncodeWidth
end

