-- ==== Sys2Proof/Laws/Sequencer.lean ====
section
/-! SUPPORT. Everything the sequencer can do at one edge. -/

namespace Sys2Proof.Machine

/-- The head operation is acknowledged in this cycle (R94). -/
abbrev acked (s : State) (op : Op) : Prop := s.seq.ops.head? = some op ∧ (dsNow s).ack = true

/-- What one cycle on the downstream port writes, field by field (R93, R94). -/
theorem driveOps_eq (s h : State) :
    driveOps s h = { h with
      flags := if acked s .rdDuty ∧ (dsNow s).rdata ≠ s.seq.wduty then h.flags ||| ErrCode.rbMismatch.flag else h.flags
      lastErr := if acked s .rdDuty ∧ (dsNow s).rdata ≠ s.seq.wduty then
        (if hostErred h then h.lastErr else 10#4) else h.lastErr
      rbDuty := if acked s .rdDuty then (dsNow s).rdata else h.rbDuty
      trace := match s.seq.ops with
        | [] => h.trace
        | op :: _ => if (dsNow s).ack then txnOf s (opRequest s op) :: h.trace else h.trace
      seq := { h.seq with
        ops := opsLeft s
        cval := if acked s .rdCtrl then (dsNow s).rdata else h.seq.cval } } := by
  obtain ho | ⟨op, rest, ho⟩ : s.seq.ops = [] ∨ ∃ op rest, s.seq.ops = op :: rest := by
    cases s.seq.ops <;> simp
  · simp [driveOps, acked, ho]
  · rcases Bool.eq_false_or_eq_true (dsNow s).ack with ha | ha
    · cases op <;> simp [driveOps, acked, ho, ha, completeOp]
      by_cases hw : (dsNow s).rdata = s.seq.wduty <;> simp [hw, raiseSeq, ErrCode.code]
      rfl
    · simp [driveOps, acked, ho, ha]

/-- The edge that ends a slot, before what follows it: the last operation, the cycle count, OVERRUN and PULSES_DONE. -/
def slotClosed (s h : State) : State :=
  let d := driveOps s h
  let h2 := { d with seq := { d.seq with hc := s.seq.hc + 1 } }
  { (if s.seq.hold < s.seq.hc + 1 then raiseSeq .overrun h2 else h2) with
    pulsesDone := BitVec.ofNat 32 (s.pulsesDone.toNat + 1) }

theorem slotClosed_eq (s h : State) :
    slotClosed s h = { driveOps s h with
      flags := if s.seq.hold < s.seq.hc + 1 then (driveOps s h).flags ||| ErrCode.overrun.flag else (driveOps s h).flags
      lastErr := if s.seq.hold < s.seq.hc + 1 then
        (if hostErred (driveOps s h) then (driveOps s h).lastErr else 9#4) else (driveOps s h).lastErr
      pulsesDone := BitVec.ofNat 32 (s.pulsesDone.toNat + 1)
      seq := { (driveOps s h).seq with hc := s.seq.hc + 1 } } := by
  unfold slotClosed
  by_cases hh : s.seq.hold < s.seq.hc + 1
  · simp [hh, raiseSeq, ErrCode.code]
    rfl
  · simp [hh]

/-- The slot phase, with the edge that ends a slot by name. -/
theorem slotEdge_eq (s h : State) :
    slotEdge s h =
      if opsLeft s = [] ∧ s.seq.hold ≤ s.seq.hc + 1 then
        (if s.pulsesDone.toNat + 1 < s.frameLen.toNat then startSlot (s.pulsesDone.toNat + 1) s (slotClosed s h)
         else .next (frameEnd s (slotClosed s h)))
      else .next { driveOps s h with seq := { (driveOps s h).seq with hc := s.seq.hc + 1 } } := rfl

/-- Everything the sequencer can do at an edge that does not stop, one case per event (R100 to R107). -/
inductive SeqEffect (s h : State) : State → Prop where
  /-- Nothing to do (R106). -/
  | idle (hp : s.seq.phase = .idle) (hr : s.seq.relPend = false) : SeqEffect s h h
  /-- A pending release runs (R106). -/
  | release (hp : s.seq.phase = .idle) (hr : s.seq.relPend = true) :
      SeqEffect s h (releaseAction s { h with seq := { h.seq with relPend := false } })
  /-- The phase goes on (R94, R100). -/
  | running (hp : s.seq.phase = .setp ∨ s.seq.phase = .pro) (ho : opsLeft s ≠ []) : SeqEffect s h (driveOps s h)
  /-- The slot goes on (R100). -/
  | holding (hp : s.seq.phase = .slot) (he : ¬ slotEnds s) :
      SeqEffect s h { driveOps s h with seq := { (driveOps s h).seq with hc := s.seq.hc + 1 } }
  /-- SET_PERIOD completes (R105). -/
  | periodSet (hp : s.seq.phase = .setp) (ho : opsLeft s = []) :
      SeqEffect s h { driveOps s h with seq := { (driveOps s h).seq with periodValid := true, phase := .idle } }
  /-- The prologue completes and slot 0 is loaded (R96, R97). -/
  | firstSlot (hp : s.seq.phase = .pro) (ho : opsLeft s = []) (y : Symbol) (hy : symbolOfCode (symbolAt s 0) = some y) :
      SeqEffect s h (loadSlot s (driveOps s h) (toPulse s.frameRegs y))
  /-- A slot ends and the next is loaded (R97, R103). -/
  | nextSlot (he : slotEnds s) (hk : s.pulsesDone.toNat + 1 < s.frameLen.toNat) (y : Symbol)
      (hy : symbolOfCode (symbolAt s (s.pulsesDone.toNat + 1)) = some y) :
      SeqEffect s h (loadSlot s (slotClosed s h) (toPulse s.frameRegs y))
  /-- The frame's last slot ends (R103, R104). -/
  | frameEnded (he : frameEnds s) : SeqEffect s h (frameEnd s (slotClosed s h))

theorem startSlot_next {k : Nat} {s h t : State} (e : startSlot k s h = .next t) :
    ∃ y, symbolOfCode (symbolAt s k) = some y ∧ t = loadSlot s h (toPulse s.frameRegs y) := by
  unfold startSlot at e
  split at e
  · cases e; exact ⟨_, ‹_›, rfl⟩
  · cases e

theorem seqEdge_effect {s h t : State} (e : seqEdge s h = .next t) : SeqEffect s h t := by
  unfold seqEdge at e
  split at e
  · cases e
    unfold idleEdge
    split
    · exact .release ‹_› ‹_›
    · exact .idle ‹_› (by simpa using ‹¬ s.seq.relPend = true›)
  · cases e
    unfold setpEdge
    split
    · exact .periodSet ‹_› ‹_›
    · exact .running (.inl ‹_›) ‹_›
  · unfold proEdge at e
    split at e
    · obtain ⟨y, hy, rfl⟩ := startSlot_next e
      exact .firstSlot ‹_› ‹_› y hy
    · cases e; exact .running (.inr ‹_›) ‹_›
  · rw [slotEdge_eq] at e
    split at e
    · rename_i hp hc
      have he : slotEnds s := ⟨hp, hc.1, hc.2⟩
      split at e
      · obtain ⟨y, hy, rfl⟩ := startSlot_next e
        exact .nextSlot he ‹_› y hy
      · cases e; exact .frameEnded ⟨he, by omega⟩
    · rename_i hp hc
      cases e
      exact .holding hp fun he => hc ⟨he.2.1, he.2.2⟩

theorem symbolOfCode_toCode (y : Symbol) : symbolOfCode (symbolToCode y) = some y := by cases y <;> rfl

/-- With no symbol forced, the sequencer never stops. -/
theorem seqEdge_completes {s : State} (hw : s.symbolWire = none) (h : State) : ∃ t, seqEdge s h = .next t := by
  have hs : ∀ k h, ∃ t, startSlot k s h = .next t := by
    intro k h
    simp [startSlot, symbolAt, hw, symbolOfCode_toCode]
  unfold seqEdge
  split
  · exact ⟨_, rfl⟩
  · exact ⟨_, rfl⟩
  · unfold proEdge
    split
    · exact hs _ _
    · exact ⟨_, rfl⟩
  · rw [slotEdge_eq]
    split
    · split
      · exact hs _ _
      · exact ⟨_, rfl⟩
    · exact ⟨_, rfl⟩

/-- What a slot load reads of the state at the start of the cycle: the build and the two configuration groups (R97, R98). -/
theorem loadSlot_congr {s s' : State} (hp : s'.params = s.params) (hf : s'.frameRegs = s.frameRegs)
    (hm : s'.mapRegs = s.mapRegs) (h : State) (u : Pulse) : loadSlot s' h u = loadSlot s h u := by
  simp only [loadSlot, slotOps, hp, hf, hm]

/-- The operations left are a suffix of the operations there were. -/
theorem opsLeft_suffix (s : State) : opsLeft s <:+ s.seq.ops := by
  unfold opsLeft
  split
  · simp [*]
  · split <;> simp [*]

end Sys2Proof.Machine
end

