-- ==== Sys2Proof/Laws/Step.lean ====
section
/-! SUPPORT. Everything one step can do. -/

namespace Sys2Proof.Machine

/-- The edge of the host port in a cycle without reset: no access, or the effect of the access presented. -/
inductive HostEdge (s : State) : State → Prop where
  | quiet (hf : fetchAccess s = none) : HostEdge s (noAccess s)
  | access (i : Instr) (h : State) (hf : fetchAccess s = some i) (he : HostEffect i s h) : HostEdge s h

theorem fetchAccess_format {s : State} {i : Instr} (h : fetchAccess s = some i) : i.format ≠ .symbol := by
  unfold fetchAccess at h
  split at h
  · cases h; exact decodeAccess_format _
  · cases h

theorem hostEdge_cases {s h : State} (e : hostEdge s = .next h) : HostEdge s h := by
  unfold hostEdge at e
  split at e
  · exact .access _ _ ‹_› (exec_effect (fetchAccess_format ‹_›) e)
  · cases e; exact .quiet ‹_›

theorem hostEdge_completes (s : State) : ∃ h, hostEdge s = .next h := by
  unfold hostEdge
  split
  · exact exec_completes (fetchAccess_format ‹_›) s
  · exact ⟨_, rfl⟩

/-- While BUSY outside UNINITIALIZED the host reaches no field the sequencer works with, but that RELEASE may set
`rel_pend` (R108, R120, R130, R131). -/
theorem HostEdge.while_busy {s h : State} (e : HostEdge s h) (hb : s.busy = true) (hs : s.backend ≠ .uninitialized) :
    h.params = s.params ∧ h.backend = s.backend ∧ h.frameRegs = s.frameRegs ∧ h.mapRegs = s.mapRegs ∧
    h.frameCnt = s.frameCnt ∧ h.pulsesDone = s.pulsesDone ∧ h.frameLen = s.frameLen ∧ h.rbDuty = s.rbDuty ∧
    h.pix = s.pix ∧ h.symbolWire = s.symbolWire ∧ h.trace = s.trace ∧ h.cycle = s.cycle ∧ h.hostIn = s.hostIn ∧
    h.dsIn = s.dsIn ∧ ∃ r, h.seq = { s.seq with relPend := r } := by
  have idle : s.busy ≠ false := by simp [hb]
  cases e with
  | quiet => exact ⟨rfl, rfl, rfl, rfl, rfl, rfl, rfl, rfl, rfl, rfl, rfl, rfl, rfl, rfl, _, rfl⟩
  | access i _ _ he =>
    cases he with
    | store r d hr hm hf =>
      have hr' : r = .irqEn := (hr.resolve_right fun h => h.elim (fun h => hs (hm h)) fun h => idle (hf h))
      subst hr'
      exact ⟨rfl, rfl, rfl, rfl, rfl, rfl, rfl, rfl, rfl, rfl, rfl, rfl, rfl, rfl, _, rfl⟩
    | pixel _ _ _ hb' => exact absurd hb' idle
    | opened _ hb' => exact absurd hb' idle
    | periodStarted hb' => exact absurd hb' idle
    | transmitted _ hb' => exact absurd hb' idle
    | closed _ hb' => exact absurd hb' idle
    | released _ _ hb' => exact absurd hb' idle
    | _ => exact ⟨rfl, rfl, rfl, rfl, rfl, rfl, rfl, rfl, rfl, rfl, rfl, rfl, rfl, rfl, _, rfl⟩

/-- A step that answers a next state is a reset, or a host edge with the sequencer's effect on it. -/
theorem step_cases {s t : State} (e : step s = .next t) :
    ((hostNow s).rst = true ∧ t = nextCycle (rstEdge (hostNow s).acc s)) ∨
    (noReset s ∧ ∃ h u, hostEdge s = .next h ∧ HostEdge s h ∧ SeqEffect s h u ∧ t = nextCycle u) := by
  unfold step at e
  split at e
  · cases e; exact .inl ⟨‹_›, rfl⟩
  · obtain ⟨h, hh⟩ := hostEdge_completes s
    rw [hh] at e
    cases hu : seqEdge s h with
    | next u =>
      simp only [hu] at e
      cases e
      exact .inr ⟨by simpa using ‹¬ (hostNow s).rst = true›, h, u, hh, hostEdge_cases hh, seqEdge_effect hu, rfl⟩
    | fault f => simp only [hu] at e; cases e
    | refused r => simp only [hu] at e; cases e

/-- The same, computed forward. -/
theorem step_of_edges {s h u : State} (hr : noReset s) (hh : hostEdge s = .next h) (hu : seqEdge s h = .next u) :
    step s = .next (nextCycle u) := by
  simp [step, hr, hh, hu]

/-- With no symbol forced, the machine never stops. -/
theorem step_completes {s : State} (hw : s.symbolWire = none) : ∃ t, step s = .next t := by
  by_cases hr : (hostNow s).rst = true
  · exact ⟨_, by simp [step, hr]; rfl⟩
  · obtain ⟨h, hh⟩ := hostEdge_completes s
    obtain ⟨u, hu⟩ := seqEdge_completes hw h
    exact ⟨_, step_of_edges (by simpa using hr) hh hu⟩

end Sys2Proof.Machine
end

