-- ==== Sys2Proof/Tests/Slice0.lean ====
section
/-! SUPPORT. The model's own tests. Expected values come from spec/95_test_vectors.md (L1, L2) or from the bit tables of
spec/30_encoding.md; each test runs one operation. The second half shows, for each obligation with hypotheses, that
something meets them (names begin with `witness`). -/

namespace Sys2Proof.Machine.Tests

/-- The state an outcome goes on with. -/
def after (o : Out) (f : State → Bool) : Bool :=
  match o with
  | .next t => f t
  | .fault _ => false
  | .refused _ => false

/-- The fault an outcome stops with. -/
def faults (o : Out) : Option Fault :=
  match o with
  | .fault f => some f
  | .next _ => none
  | .refused _ => none

theorem next_of {o : Out} (h : after o (fun _ => true) = true) : ∃ t, o = .next t := by
  cases o with
  | next t => exact ⟨t, rfl⟩
  | fault _ => cases h
  | refused _ => cases h

theorem next_with {o : Out} {f : State → Bool} (h : after o f = true) : ∃ t, o = .next t ∧ f t = true := by
  cases o with
  | next t => exact ⟨t, rfl, h⟩
  | fault _ => cases h
  | refused _ => cases h

/-- The device acknowledges and answers `v`. -/
def ackPins (v : Word) : DsIn := { ack := true, rdata := v, err := false }

/-! ### Well-formedness -/

theorem test_command_word_is_no_reserved_word :
    Instr.wellFormed (.cmdReserved 0x00000003#32) = false ∧ Instr.wellFormed (.cmdReserved 0x00000005#32) = false ∧
    Instr.wellFormed (.cmdReserved 0x00000000#32) = false := by decide

theorem test_reserved_words_are_well_formed :
    Instr.wellFormed (.cmdReserved 0x00000006#32) = true ∧ Instr.wellFormed (.cmdReserved 0x00000010#32) = true ∧
    Instr.wellFormed (.cmdReserved 0xFFFFFFFF#32) = true := by decide

/-! ### Decoding: words from R69 to R72, least significant byte first -/

theorem test_decode_commands :
    decodeTableWord 32 0x00000000 = some .cmdNop ∧ decodeTableWord 32 0x00000001 = some .cmdOpen ∧
    decodeTableWord 32 0x00000002 = some .cmdSetPeriod ∧ decodeTableWord 32 0x00000003 = some .cmdTransmit ∧
    decodeTableWord 32 0x00000004 = some .cmdClose ∧ decodeTableWord 32 0x00000005 = some .cmdRelease := by decide

/-- OPCODE 0x6, a set bit above OPCODE (0x13 is not TRANSMIT), and the top bit alone (R70, R74). -/
theorem test_decode_reserved_commands :
    decodeTableWord 32 0x00000006 = some (.cmdReserved 0x00000006#32) ∧
    decodeTableWord 32 0x00000013 = some (.cmdReserved 0x00000013#32) ∧
    decodeTableWord 32 0x80000001 = some (.cmdReserved 0x80000001#32) := by decide

theorem test_decode_symbols :
    decodeTableWord 8 0 = some .symZero ∧ decodeTableWord 8 1 = some .symOne ∧
    decodeTableWord 8 2 = some .symReset ∧ decodeTableWord 8 3 = some .symReserved := by decide

/-- `R STATUS`, 0x00C, with and without data on `h_wdata`, which a read ignores; the highest offset. -/
theorem test_decode_host_read :
    decodeTableWord 48 0x000C00000000 = some (.hostRead 0x00C#13) ∧
    decodeTableWord 48 0x000CFFFFFFFF = some (.hostRead 0x00C#13) ∧
    decodeTableWord 48 0x1FFF00000000 = some (.hostRead 0x1FFF#13) := by decide

/-- `W WINDOW_BITS, 72` of L3 program 1: bit 45, offset 0x024, data 0x48. -/
theorem test_decode_host_write :
    decodeTableWord 48 0x202400000048 = some (.hostWrite 0x024#13 0x00000048#32) ∧
    decodeTableWord 48 0x3FFFFFFFFFFF = some (.hostWrite 0x1FFF#13 0xFFFFFFFF#32) := by decide

theorem test_decode_rejects_by_name :
    decode [] = .error .badLength ∧ decode [0x00#8, 0x00#8] = .error .badLength ∧
    decode [0x04#8] = .error .symbolPadding ∧
    decode [0x00#8, 0x00#8, 0x00#8, 0x00#8, 0x00#8, 0x40#8] = .error .accessPadding := by
  exact ⟨rfl, rfl, rfl, rfl⟩

/-! ### States the tests start from -/

/-- L3's common parameters. -/
def params24 : Params := { maxLeds := 64, clkHz := 100000000, pwmClkHz := 24000000 }

/-- Right after reset. -/
def reset0 : State := State.resetWith params24

/-- The map of L3 program 1. -/
def map1 : MapRegs := { base := 0xFF1B0000#32, size := 0x10#32, offs := 0x000C0804#32, feat := 0x106#32, enMask := 0x3#32 }

/-- The map of L3 program 2, without the lock. -/
def map2 : MapRegs := { base := 0x40000000#32, size := 0x100#32, offs := 0x00080400#32, feat := 0#32, enMask := 1#32 }

/-- The frame group of L3 program 1. -/
def frame1 : FrameRegs :=
  { ctrl := 0#32, ledCount := 1#32, windowBits := 72#32, t0h := 300#32, t0l := 900#32, t1h := 600#32, t1l := 600#32,
    resetLow := 50000#32, periodNs := 1200#32 }

/-- Pixel 0 white. -/
def white : List Host.Cell := [(0x1000, 0xFF#8), (0x1001, 0xFF#8), (0x1002, 0xFF#8)]

/-- UNINITIALIZED, configured. -/
def closed0 : State := { reset0 with mapRegs := map1, frameRegs := frame1, pix := white }

/-- ENABLED and idle, no period yet. -/
def opened : State := { closed0 with backend := .enabled }

/-- ENABLED and idle, the period written. -/
def ready : State := { opened with seq := { Seq.zeros with periodValid := true } }

/-- ENABLED and idle with configuration W = 0. -/
def noWindow : State := { ready with frameRegs := { frame1 with windowBits := 0#32 } }

def disabled0 : State := { ready with backend := .disabled }

/-- ENABLED, SET_PERIOD under way, the device answering. -/
def inSetp : State :=
  { opened with seq := { Seq.zeros with phase := .setp, ops := [.wrPeriod] }, dsIn := [ackPins 0#32] }

/-- The prologue of a frame, nothing done yet, the device answering the ctrl value 0x10. -/
def inPro : State :=
  { ready with
    backend := .transmitting, frameLen := 25#32
    seq := { Seq.zeros with periodValid := true, phase := .pro, ops := [.wrPeriod, .rdCtrl, .wrCtrlEn] }
    dsIn := [ackPins 0x10#32] }

/-- The prologue has nothing left to do. -/
def proDone : State := { inPro with seq := { inPro.seq with ops := [] } }

/-- The last operation of the prologue. -/
def proLast : State := { inPro with seq := { inPro.seq with ops := [.wrCtrlEn], cval := 0x10#32 } }

/-- The first cycle of slot 0, a ONE: duty 14, hold 120 (L2.4). -/
def inSlot : State :=
  { inPro with seq := { inPro.seq with
      phase := .slot, ops := [.rdCtrl, .wrCtrlLock, .wrDuty, .wrCtrlUnlock], hc := 0, hold := 120, wduty := 14#32 } }

/-- The last cycle of slot 0. -/
def slotLast : State := { inSlot with seq := { inSlot.seq with ops := [], hc := 119 } }

/-- The last cycle of slot 24, the frame's RESET: duty 0, hold 5000. -/
def frameLast : State :=
  { inSlot with
    pulsesDone := 24#32
    seq := { inSlot.seq with ops := [], hc := 4999, hold := 5000, wduty := 0#32 } }

/-- The same of a blanking frame. -/
def blankLast : State := { frameLast with seq := { frameLast.seq with blank := true, final := true } }

/-- A frame of one slot with no time in it, no lock, readback on: the slot ends at once, late, and the readback does not
match (L2.11). -/
def lateMismatch : State :=
  { inSlot with
    mapRegs := map2
    frameRegs := { frame1 with ctrl := 1#32, ledCount := 0#32, resetLow := 0#32 }
    frameLen := 1#32
    seq := { inSlot.seq with ops := [.rdDuty], hc := 1, hold := 0, wduty := 0#32 }
    dsIn := [ackPins 5#32] }

/-- ENABLED and idle with a release pending. -/
def releasing : State := { ready with seq := { ready.seq with relPend := true } }

/-- The host drives one access in this cycle. -/
def withAccess (write : Bool) (off : Offset) (data : Word) (s : State) : State :=
  { s with hostIn := [{ rst := false, acc := some (accessWord write off data) }] }

/-- `rst` is 1 in this cycle, and an access is presented with it. -/
def withRst (s : State) : State :=
  { s with hostIn := [{ rst := true, acc := some (accessWord true 0x014#13 1#32) }] }

/-- OKAY to a write. -/
def okay : Option HostResp := some { err := false, rdata := none }

/-- ERROR to a write. -/
def error : Option HostResp := some { err := true, rdata := none }

/-! ### Commands (L2.8, L2.9) -/

theorem test_nop_while_busy : after (exec .cmdNop inSlot) (fun t => t.resp = okay ∧ t.flags = 0#32) = true := by decide

theorem test_open_in_uninitialized :
    after (exec .cmdOpen closed0) (fun t => t.resp = okay ∧ t.backend = .enabled) = true := by decide

/-- base + size = 2^32 + 4. -/
theorem test_open_map_fail :
    after (exec .cmdOpen { closed0 with mapRegs := { map1 with base := 0xFFFFFFF0#32, size := 0x14#32 } })
      (fun t => t.resp = error ∧ t.backend = .uninitialized ∧ t.flags = 0x00200000#32 ∧ t.lastErr = 6#4) = true := by
  decide

theorem test_set_period_in_setp :
    after (exec .cmdSetPeriod inSetp) (fun t => t.resp = error ∧ t.flags = 0x00040000#32 ∧ t.lastErr = 3#4) = true := by
  decide

/-- FRAME_LEN = 25 for L = 1, W = 72 (L2.2). -/
theorem test_transmit :
    after (exec .cmdTransmit ready)
      (fun t => t.resp = okay ∧ t.backend = .transmitting ∧ t.frameLen = 25#32 ∧ t.busy = true) = true := by decide

theorem test_transmit_checks_the_period_first :
    after (exec .cmdTransmit { noWindow with seq := Seq.zeros }) (fun t => t.resp = error ∧ t.lastErr = 8#4) = true := by
  decide

theorem test_close_in_disabled :
    after (exec .cmdClose disabled0) (fun t => t.resp = okay ∧ t.backend = .disabled) = true := by decide

theorem test_release_in_frame :
    after (exec .cmdRelease inSlot) (fun t => t.resp = okay ∧ t.seq.relPend = true ∧ t.backend = .transmitting) = true := by
  decide

theorem test_release_that_cannot_blank :
    after (exec .cmdRelease noWindow) (fun t => t.resp = okay ∧ t.backend = .disabled) = true := by decide

theorem test_reserved_command :
    after (exec (.cmdReserved 0x13#32) ready) (fun t => t.resp = error ∧ t.lastErr = 2#4 ∧ t.backend = .enabled) = true := by
  decide

/-! ### Host accesses (L2.10) -/

theorem test_read_param :
    after (exec (.hostRead 0x004#13) reset0) (fun t => t.resp = some { err := false, rdata := some 0x01000040#32 }) = true := by
  decide

theorem test_read_entry_64_is_unmapped :
    after (exec (.hostRead 0x1100#13) ready)
      (fun t => t.resp = some { err := true, rdata := some 0#32 } ∧ t.flags = 0x00010000#32 ∧ t.lastErr = 1#4) = true := by
  decide

theorem test_write_feat_is_masked :
    after (exec (.hostWrite 0x04C#13 0xFFFFFFFF#32) reset0) (fun t => t.resp = okay ∧ t.mapRegs.feat = 0x0000011F#32) = true := by
  decide

theorem test_write_pixel_drops_the_top_byte :
    after (exec (.hostWrite 0x1000#13 0xAB123456#32) ready)
      (fun t => readPixel t 0 = 0x123456#24 ∧ t.pix = [(0x1000, 0x56#8), (0x1001, 0x34#8), (0x1002, 0x12#8)]) = true := by
  decide

/-! ### Symbols and pulses (L1 rows 5, 6 and 10, L2.4) -/

theorem test_zero_slot :
    after (exec .symZero proDone) (fun t => t.seq.wduty = 7#32 ∧ t.seq.hold = 120 ∧ t.seq.phase = .slot) = true := by decide

theorem test_one_slot : after (exec .symOne proDone) (fun t => t.seq.wduty = 14#32 ∧ t.seq.hold = 120) = true := by decide

theorem test_reset_slot : after (exec .symReset proDone) (fun t => t.seq.wduty = 0#32 ∧ t.seq.hold = 5000) = true := by decide

theorem test_reserved_symbol : faults (exec .symReserved proDone) = some .reservedSymbol := by decide

/-- Row 1 of L2.1: 00110100 00010010 01010110. -/
theorem test_encode_pixel :
    encodePixel 0x123456#24 = [0, 0, 1, 1, 0, 1, 0, 0, 0, 0, 0, 1, 0, 0, 1, 0, 0, 1, 0, 1, 0, 1, 1, 0].map
      (fun n => if n = 1 then Symbol.one else Symbol.zero) := by decide

/-- L2.3, the rows of L = 1, W = 10: windows end inside the pixel, the last symbol is the final RESET. -/
theorem test_symbol_positions :
    let y := frameSym (fun _ => 0xFFFFFF#24) 1 10
    y 9 = .one ∧ y 10 = .reset ∧ y 11 = .one ∧ y 21 = .reset ∧ y 25 = .one ∧ y 26 = .reset := by decide

/-- L2.4: halves round up, cycles round up. -/
theorem test_conversions :
    toCounts { params24 with pwmClkHz := 500000000 } 3 = 2 ∧ toCounts { params24 with pwmClkHz := 1 } 499999999 = 0 ∧
    toCycles params24 11 = 2 ∧ toCycles { params24 with clkHz := 24000000 } 1200 = 29 ∧
    toCycles params24 8589934590 = 858993459 := by decide

/-! ### The machine's cycle (L2.7, L2.11, L2.12) -/

/-- Device ctrl 0x10: WR_CTRL_EN drives 0x13, WR_CTRL_UNLOCK 0x13 of 0x53 with the lock bit 0x40 cleared. -/
theorem test_control_words :
    dsPort proLast = some (.write 0xFF1B000C#32 0x13#32) ∧
    dsPort { inSlot with seq := { inSlot.seq with ops := [.wrCtrlUnlock], cval := 0x53#32 } } =
      some (.write 0xFF1B000C#32 0x13#32) := by decide

/-- FrameEnd and a write of STATUS clearing DONE in the same cycle: set beats clear. -/
theorem test_set_beats_clear :
    after (step (withAccess true 0x00C#13 0x100#32 frameLast))
      (fun t => t.flags = 0x100#32 ∧ t.frameCnt = 1#32 ∧ t.backend = .enabled ∧ t.resp = okay) = true := by decide

/-- An overrunning slot end and a mismatching readback at one edge, then also a rejected write. -/
theorem test_last_error_priority :
    after (step lateMismatch) (fun t => t.flags = 0x03000100#32 ∧ t.lastErr = 9#4 ∧ t.rbDuty = 5#32) = true ∧
    after (step (withAccess true 0x000#13 0#32 lateMismatch)) (fun t => t.flags = 0x03010100#32 ∧ t.lastErr = 1#4) = true := by
  decide

theorem test_reset_keeps_pixels :
    after (step (withRst { disabled0 with frameCnt := 7#32 }))
      (fun t => t.backend = .uninitialized ∧ t.frameCnt = 0#32 ∧ readPixel t 0 = 0xFFFFFF#24 ∧
        t.seq = Seq.zeros ∧ t.frameRegs = FrameRegs.zeros) = true := by decide

/-- A word placed for the host's check runs in the very next step. -/
theorem test_placed_words_run :
    after (step (reset0.withFetchWord 32 0x13)) (fun t => t.lastErr = 2#4) = true ∧
    after (step (reset0.withFetchWord 46 0x202400000048)) (fun t => t.frameRegs.windowBits = 72#32) = true ∧
    faults (step (reset0.withFetchWord 2 3)) = some .reservedSymbol := by decide

/-! ## Witnesses: every obligation's hypotheses are met, clause by clause -/

/-- `DecodeOfEncodeIsTheInstruction`: at the lowest reserved word and the highest operands. -/
theorem witness_decodeOfEncode :
    Instr.wellFormed (.cmdReserved 6#32) = true ∧ Instr.wellFormed (.hostWrite 0x1FFF#13 0xFFFFFFFF#32) = true := by decide

/-- `EncodeOfDecodeIsTheBytes`: a write, and a read with data it ignores. -/
theorem witness_encodeOfDecode :
    decode [0x00#8, 0x00#8, 0x00#8, 0x00#8, 0x00#8, 0x20#8] = .ok (.hostWrite 0x0000#13 0#32) ∧
    decode [0xFF#8, 0xFF#8, 0xFF#8, 0xFF#8, 0xFF#8, 0x1F#8] = .ok (.hostRead 0x1FFF#13) := ⟨rfl, rfl⟩

/-- `RstResetsAllButPixelRam`: in the middle of a slot, with an access presented. -/
theorem witness_rst :
    (hostNow (withRst inSlot)).rst = true ∧ ∃ a, (hostNow (withRst inSlot)).acc = some a := ⟨rfl, _, rfl⟩

/-- `StepRunsTheAccess`: a write during a frame, and one in an idle block. -/
theorem witness_stepRunsTheAccess :
    (∃ a rest h t, (withAccess true 0x010#13 5#32 inPro).hostIn = { rst := false, acc := some a } :: rest ∧
      decodeAccess a = .hostWrite 0x010#13 5#32 ∧
      exec (.hostWrite 0x010#13 5#32) (withAccess true 0x010#13 5#32 inPro) = .next h ∧
      seqEdge (withAccess true 0x010#13 5#32 inPro) h = .next t) ∧
    (∃ a rest h, (withAccess true 0x014#13 3#32 ready).hostIn = { rst := false, acc := some a } :: rest ∧
      decodeAccess a = .hostWrite 0x014#13 3#32 ∧
      exec (.hostWrite 0x014#13 3#32) (withAccess true 0x014#13 3#32 ready) = .next h ∧
      (withAccess true 0x014#13 3#32 ready).seq.phase = .idle ∧ (withAccess true 0x014#13 3#32 ready).seq.relPend = false) := by
  refine ⟨?_, ?_⟩
  · obtain ⟨h, hh⟩ := exec_completes (i := .hostWrite 0x010#13 5#32) (by decide) (withAccess true 0x010#13 5#32 inPro)
    obtain ⟨t, ht⟩ := seqEdge_completes (s := withAccess true 0x010#13 5#32 inPro) rfl h
    exact ⟨_, _, h, t, rfl, by decide, hh, ht⟩
  · obtain ⟨h, hh⟩ := exec_completes (i := .hostWrite 0x014#13 3#32) (by decide) (withAccess true 0x014#13 3#32 ready)
    exact ⟨_, _, h, rfl, by decide, hh, rfl, rfl⟩

/-- `OpenChecksTheMap`: busy, opened, a map that ends at 2^32 with an offset that ends at the size, and the same one word
too long. -/
theorem witness_open :
    inSlot.busy = true ∧ (ready.busy = false ∧ ready.backend ≠ .uninitialized) ∧
    (closed0.busy = false ∧ closed0.backend = .uninitialized ∧
      ((0x10 : Nat) ≠ 0 ∧ 0xFFFFFFF0 % 4 = 0 ∧ 0xFFFFFFF0 + 0x10 ≤ 2 ^ 32 ∧
        (0x04 % 4 = 0 ∧ 0x04 + 4 ≤ 0x10) ∧ (0x08 % 4 = 0 ∧ 0x08 + 4 ≤ 0x10) ∧ (0x0C % 4 = 0 ∧ 0x0C + 4 ≤ 0x10) ∧
        (0x04 : Nat) ≠ 0x08 ∧ (0x04 : Nat) ≠ 0x0C ∧ (0x08 : Nat) ≠ 0x0C)) ∧
    (reset0.busy = false ∧ reset0.backend = .uninitialized ∧ ¬ reset0.mapRegs.size.toNat ≠ 0) ∧
    ¬ (0xFFFFFFF0 + 0x14 ≤ 2 ^ 32) := by decide

/-- `SetPeriodStartsThePeriodWrite`, one state for each clause. -/
theorem witness_setPeriod :
    (opened.busy = false ∧ opened.backend = .enabled) ∧ inSetp.busy = true ∧
    (disabled0.busy = false ∧ disabled0.backend ≠ .enabled) := by decide

/-- `TransmitStartsTheFrame`, one state for each clause, at LED_COUNT = MAX_LEDS and one above. -/
theorem witness_transmit :
    (let s := { ready with frameRegs := { frame1 with ledCount := 64#32, windowBits := 1#32 } }
     s.busy = false ∧ s.backend = .enabled ∧ s.seq.periodValid = true ∧ 1 ≤ s.frameRegs.windowBits.toNat ∧
      s.frameRegs.ledCount.toNat ≤ s.params.maxLeds) ∧
    releasing.busy = true ∧ (closed0.busy = false ∧ closed0.backend ≠ .enabled) ∧
    (opened.busy = false ∧ opened.backend = .enabled ∧ opened.seq.periodValid = false) ∧
    (let s := { ready with frameRegs := { frame1 with ledCount := 65#32 } }
     s.busy = false ∧ s.backend = .enabled ∧ s.seq.periodValid = true ∧ s.params.maxLeds < s.frameRegs.ledCount.toNat) ∧
    (noWindow.busy = false ∧ noWindow.backend = .enabled ∧ noWindow.seq.periodValid = true ∧
      noWindow.frameRegs.windowBits.toNat = 0) := by decide

/-- `CloseDisables`, one state for each clause. -/
theorem witness_close :
    (ready.busy = false ∧ ready.backend = .enabled) ∧ (disabled0.busy = false ∧ disabled0.backend = .disabled) ∧
    inSlot.busy = true ∧ (reset0.busy = false ∧ reset0.backend = .uninitialized) := by decide

/-- `ReleaseBlanksThenDisables`, one state for each clause. -/
theorem witness_release :
    reset0.backend = .uninitialized ∧ disabled0.backend = .disabled ∧
    (releasing.backend ≠ .uninitialized ∧ releasing.busy = true ∧ releasing.seq.relPend = true) ∧
    (blankLast.backend ≠ .uninitialized ∧ blankLast.busy = true ∧ blankLast.seq.final = true) ∧
    (inSlot.backend = .transmitting ∧ inSlot.busy = true ∧ inSlot.seq.relPend = false ∧ inSlot.seq.final = false) ∧
    (inSetp.backend = .enabled ∧ inSetp.busy = true ∧ inSetp.seq.relPend = false ∧ inSetp.seq.final = false) ∧
    (ready.backend = .enabled ∧ ready.busy = false ∧ ready.seq.periodValid = true ∧
      1 ≤ ready.frameRegs.windowBits.toNat ∧ ready.frameRegs.ledCount.toNat ≤ ready.params.maxLeds) ∧
    (noWindow.backend = .enabled ∧ noWindow.busy = false ∧ noWindow.frameRegs.windowBits.toNat = 0) ∧
    (opened.backend = .enabled ∧ opened.busy = false ∧ opened.seq.periodValid = false) := by decide

/-- `CommandsLeaveTheRest`: a command that is accepted and changes STATE. -/
theorem witness_commandsLeaveTheRest :
    Instr.cmdOpen.format = .cmd ∧
    ∃ t, exec .cmdOpen closed0 = .next t ∧ decide (t.resp = some { err := false, rdata := none }) = true :=
  ⟨rfl, next_with (by decide)⟩

/-- `HostReadAnswersAndChangesNothing`: a misaligned offset, the last CSR, the last pixel entry, the offset behind it, and
a hole of the CSR area. -/
theorem witness_hostRead :
    (0x0002#13).toNat % 4 ≠ 0 ∧ 0x06C#13 = Csr.rbDuty.offset ∧
    0x014#13 = Csr.cmd.offset ∧
    ((0x10FC#13).toNat % 4 = 0 ∧ 0x1000 ≤ (0x10FC#13).toNat ∧ (0x10FC#13).toNat < 0x1000 + 4 * ready.params.maxLeds) ∧
    ((0x1100#13).toNat % 4 = 0 ∧ ¬ (0x1000 ≤ (0x1100#13).toNat ∧ (0x1100#13).toNat < 0x1000 + 4 * ready.params.maxLeds)) ∧
    (∀ r : Csr, 0x1100#13 ≠ r.offset ∧ 0x001C#13 ≠ r.offset ∧ 0x0FFC#13 ≠ r.offset) := by
  refine ⟨by decide, rfl, rfl, by decide, by decide, fun r => ?_⟩
  cases r <;> decide

/-- `CsrsReadAsTheTableSays`: the first and the last row. -/
theorem witness_csrsRead :
    (0x000#13, 0x4C504245#32) ∈ [(0x000#13, 0x4C504245#32), (0x06C#13, ready.rbDuty)] ∧
    (0x06C#13, ready.rbDuty) ∈ [(0x000#13, 0x4C504245#32), (0x06C#13, ready.rbDuty)] := by simp

/-- `HostWriteStoresThroughTheMask`, `PixelWriteChangesItsEntryOnly`: a register of each group unlocked, IRQ_EN, and the
first and last pixel entry. -/
theorem witness_hostWrite :
    (Csr.pwmEnMask.inMapGroup = true ∧ reset0.backend = .uninitialized) ∧
    (Csr.ctrl.inFrameGroup = true ∧ ready.busy = false) ∧ Csr.irqEn = .irqEn ∧
    ((0x1000#13).toNat % 4 = 0 ∧ 0x1000 ≤ (0x1000#13).toNat ∧ (0x1000#13).toNat < 0x1000 + 4 * ready.params.maxLeds) ∧
    ((0x10FC#13).toNat % 4 = 0 ∧ 0x1000 ≤ (0x10FC#13).toNat ∧ (0x10FC#13).toNat < 0x1000 + 4 * ready.params.maxLeds) := by
  decide

/-- `HostWriteBoundsAreChecked`: misaligned, unmapped, read-only. -/
theorem witness_hostWriteBounds :
    (0x1001#13).toNat % 4 ≠ 0 ∧
    ((∀ r : Csr, 0x1FFC#13 ≠ r.offset) ∧
      ¬ (0x1000 ≤ (0x1FFC#13).toNat ∧ (0x1FFC#13).toNat < 0x1000 + 4 * ready.params.maxLeds)) ∧
    0x018#13 = Csr.lastErr.offset := by
  refine ⟨by decide, ⟨fun r => ?_, by decide⟩, rfl⟩
  cases r <;> decide

/-- `WriteLocksHold`: each lock closed and open. -/
theorem witness_writeLocks :
    opened.backend ≠ .uninitialized ∧ reset0.backend = .uninitialized ∧ inSlot.busy = true ∧ ready.busy = false := by decide

/-- `RejectedAccessOnlyRaises`: a read that answers ERROR. -/
theorem witness_rejectedAccess :
    (Instr.hostRead 0x0002#13).format ≠ .symbol ∧
    ∃ t, exec (.hostRead 0x0002#13) ready = .next t ∧ decide (t.resp = some { err := true, rdata := some 0#32 }) = true :=
  ⟨by decide, next_with (by decide)⟩

/-- `SymbolsLoadTheirSlots`: `slots` is what its hypothesis says, with lock and readback, and without both. -/
theorem witness_symbolsLoad :
    (map1.feat.getLsbD 8 = true ∧ map2.feat.getLsbD 8 = false) ∧
    (lateMismatch.frameRegs.ctrl.getLsbD 0 = true ∧ frame1.ctrl.getLsbD 0 = false) := by decide

/-- `ReorderThenSerializeMsbFirst`, `PixelRoundTrip`: a bit position, and two pixels with the same symbols. -/
theorem witness_color : (0 : Nat) < 24 ∧ (23 : Nat) < 24 ∧ encodePixel 0x010203#24 = encodePixel 0x010203#24 :=
  ⟨by decide, by decide, rfl⟩

/-- `FrameLengthLaw`, `SymbolLookupEqualsTheFrame`, `FrameEndsInReset`: the smallest and the largest frame of L2.2. -/
theorem witness_frames :
    (1 ≤ 1 ∧ 0 < frameLength 0 1) ∧ (1 ≤ 1024 ∧ 1024 ≤ 1024 ∧ 49151 < frameLength 1024 1) := by decide

/-- `BlankingFrameIsAllZero`. -/
theorem witness_blanking : blankLast.seq.blank = true := rfl

/-- `HoldCyclesAreLeast`, `CountsAreNearest`: a legal build, the largest bit total (R91), and a counter of 1 GHz. -/
theorem witness_conversions :
    params24.legal ∧ 2 * (2 ^ 32 - 1) < 2 ^ 33 ∧ ({ params24 with pwmClkHz := 1000000000 } : Params).pwmClkHz = 10 ^ 9 ∧
    ({ params24 with pwmClkHz := 1000000000 } : Params).legal := by decide

/-- `DrivenTransactions`: each phase that drives, and the two ways to drive nothing. -/
theorem witness_driven :
    (noReset inPro ∧ inPro.seq.phase ≠ .idle ∧ inPro.seq.ops = .wrPeriod :: [.rdCtrl, .wrCtrlEn]) ∧
    (noReset inSetp ∧ inSetp.seq.phase ≠ .idle ∧ inSetp.seq.ops = .wrPeriod :: []) ∧
    (noReset lateMismatch ∧ lateMismatch.seq.phase ≠ .idle ∧ lateMismatch.seq.ops = .rdDuty :: []) ∧
    ready.seq.phase = .idle ∧ slotLast.seq.ops = [] := by decide

/-! States that meet the invariant. -/

theorem inv_reset0 : Inv reset0 := by constructor <;> decide
theorem inv_closed0 : Inv closed0 := by constructor <;> decide
theorem inv_ready : Inv ready := by constructor <;> decide
theorem inv_noWindow : Inv noWindow := by constructor <;> decide
theorem inv_disabled0 : Inv disabled0 := by constructor <;> decide
theorem inv_inSetp : Inv inSetp := by constructor <;> decide
theorem inv_inPro : Inv inPro := by constructor <;> decide
theorem inv_proLast : Inv proLast := by constructor <;> decide
theorem inv_inSlot : Inv inSlot := by constructor <;> decide
theorem inv_slotLast : Inv slotLast := by constructor <;> decide
theorem inv_frameLast : Inv frameLast := by constructor <;> decide
theorem inv_blankLast : Inv blankLast := by constructor <;> decide
theorem inv_releasing : Inv releasing := by constructor <;> decide
theorem inv_lateMismatch : Inv lateMismatch := by constructor <;> decide
theorem inv_releasingNoWindow : Inv { noWindow with seq := { noWindow.seq with relPend := true } } := by
  constructor <;> decide

/-- The host's and the device's pins are no part of the invariant. -/
theorem inv_pins {s : State} (h : Inv s) (hs : List HostIn) (ds : List DsIn) : Inv { s with hostIn := hs, dsIn := ds } :=
  ⟨h.1, h.2, h.3, h.4, h.5, h.6, h.7, h.8, h.9, h.10, h.11, h.12, h.13, h.14, h.15, h.16, h.17, h.18, h.19, h.20, h.21⟩

/-- `InvHoldsAtReset`: a legal build. -/
theorem witness_invHoldsAtReset : params24.legal ∧ Config.build.legal := by decide

theorem reset_inv : Inv State.reset := by constructor <;> decide

/-- `InvIsKeptByEveryStep`, `InvStatesNeverStop`, `PixelRamStaysCanonical`: from reset, in a frame, at its end, under
`rst`. -/
theorem witness_invIsKept :
    (Inv reset0 ∧ ∃ t, step reset0 = .next t) ∧ (Inv inSlot ∧ ∃ t, step inSlot = .next t) ∧
    (Inv frameLast ∧ Memory.wf frameLast.pix = true ∧ ∃ t, step frameLast = .next t) ∧
    (Inv (withRst inSlot) ∧ ∃ t, step (withRst inSlot) = .next t) :=
  ⟨⟨inv_reset0, step_completes rfl⟩, ⟨inv_inSlot, step_completes rfl⟩, ⟨inv_frameLast, rfl, step_completes rfl⟩,
    inv_pins inv_inSlot _ _, step_completes rfl⟩

/-- `StepRunsTheSymbol`: the prologue's last operation is acknowledged, with a RELEASE in the same cycle and with a quiet
host; and a forced reserved code. -/
theorem witness_stepRunsTheSymbol :
    (let s := withAccess true 0x014#13 5#32 proLast
     Inv s ∧ noReset s ∧ s.seq.phase = .pro ∧ s.seq.ops = [.wrCtrlEn] ∧ (dsNow s).ack = true ∧
      decodeSymbol (symbolAt s 0) = .symOne) ∧
    (Inv proLast ∧ noReset proLast ∧ proLast.seq.phase = .pro ∧ proLast.seq.ops = [.wrCtrlEn] ∧
      (dsNow proLast).ack = true ∧ decodeSymbol (symbolAt proLast 0) = .symOne) ∧
    (let s := { proLast with symbolWire := some 3#2 }
     noReset s ∧ s.seq.phase = .pro ∧ opsLeft s = [] ∧ decodeSymbol (symbolAt s 0) = .symReserved) :=
  ⟨⟨inv_pins inv_proLast _ _, by decide⟩, ⟨inv_proLast, by decide⟩, by decide⟩

/-- `DownstreamAccessesStayInTheRegion`. -/
theorem witness_region : map1.ok = true ∧ map2.ok = true ∧ Inv inPro ∧ ∃ q, dsPort inPro = some q :=
  ⟨by decide, by decide, inv_inPro, _, rfl⟩

/-- `UnacknowledgedTransactionWaits`: in the prologue and in a slot, with a device that does not answer. -/
theorem witness_unacknowledged :
    (let s := { inPro with dsIn := [{ ack := false, rdata := 0#32, err := false }] }
     Inv s ∧ noReset s ∧ s.seq.phase ≠ .idle ∧ s.seq.ops = .wrPeriod :: [.rdCtrl, .wrCtrlEn] ∧ (dsNow s).ack = false) ∧
    (let s := { inSlot with dsIn := [{ ack := false, rdata := 0#32, err := false }] }
     Inv s ∧ noReset s ∧ s.seq.phase = .slot ∧ s.seq.ops = .rdCtrl :: [.wrCtrlLock, .wrDuty, .wrCtrlUnlock] ∧
      (dsNow s).ack = false) :=
  ⟨⟨inv_pins inv_inPro _ _, by decide⟩, inv_pins inv_inSlot _ _, by decide⟩

/-- `AcknowledgeCompletesTheOperation`: a period write, a ctrl read, and a readback that differs. -/
theorem witness_acknowledge :
    (noReset inPro ∧ completes inPro .wrPeriod ∧ inPro.seq.ops.tail ≠ [] ∧ ∃ t, step inPro = .next t) ∧
    (noReset inSlot ∧ completes inSlot .rdCtrl ∧ ∃ t, step inSlot = .next t) ∧
    (noReset lateMismatch ∧ completes lateMismatch .rdDuty ∧ (dsNow lateMismatch).rdata ≠ lateMismatch.seq.wduty ∧
      ∃ t, step lateMismatch = .next t) :=
  ⟨⟨rfl, by decide, by decide, step_completes rfl⟩, ⟨rfl, by decide, step_completes rfl⟩, rfl, by decide, by decide,
    step_completes rfl⟩

/-- `SlotHoldRule`, `FrameEndEffects`: a slot that goes on, one that ends, one that ends late with its frame, and the
last slot of a normal and of a blanking frame. -/
theorem witness_slotHold :
    (Inv inSlot ∧ noReset inSlot ∧ inSlot.seq.phase = .slot ∧ ¬ slotEnds inSlot ∧ ∃ t, step inSlot = .next t) ∧
    (Inv slotLast ∧ noReset slotLast ∧ slotEnds slotLast ∧ slotLast.pulsesDone.toNat + 1 < slotLast.frameLen.toNat ∧
      ∃ t, step slotLast = .next t) ∧
    (Inv lateMismatch ∧ noReset lateMismatch ∧ slotEnds lateMismatch ∧
      lateMismatch.seq.hold < lateMismatch.seq.hc + 1 ∧ frameEnds lateMismatch ∧ ∃ t, step lateMismatch = .next t) ∧
    (Inv frameLast ∧ noReset frameLast ∧ frameEnds frameLast ∧ ∃ t, step frameLast = .next t) ∧
    (Inv blankLast ∧ noReset blankLast ∧ frameEnds blankLast ∧ ∃ t, step blankLast = .next t) :=
  ⟨⟨inv_inSlot, rfl, rfl, by decide, step_completes rfl⟩, ⟨inv_slotLast, rfl, by decide, by decide, step_completes rfl⟩,
    ⟨inv_lateMismatch, rfl, by decide, by decide, by decide, step_completes rfl⟩,
    ⟨inv_frameLast, rfl, by decide, step_completes rfl⟩, inv_blankLast, rfl, by decide, step_completes rfl⟩

/-- `SetPeriodCompletes`: acknowledged and not; acknowledged with a RELEASE in the same cycle; PERIOD_VALID becomes 1, and
stays. -/
theorem witness_setPeriodCompletes :
    (hostQuiet inSetp ∧ inSetp.seq.phase = .setp ∧ inSetp.seq.ops = [.wrPeriod] ∧ (dsNow inSetp).ack = true) ∧
    (let s := { inSetp with dsIn := [{ ack := false, rdata := 0#32, err := false }] }
     hostQuiet s ∧ s.seq.phase = .setp ∧ s.seq.ops = [.wrPeriod] ∧ (dsNow s).ack = false) ∧
    (let s := withAccess true 0x014#13 5#32 inSetp
     noReset s ∧ s.seq.phase = .setp ∧ s.seq.ops = [.wrPeriod] ∧ (dsNow s).ack = true) ∧
    (noReset inSetp ∧ inSetp.seq.periodValid = false ∧
      ∃ t, step inSetp = .next t ∧ decide (t.seq.periodValid = true) = true) ∧
    (noReset ready ∧ ready.seq.periodValid = true ∧ ∃ t, step ready = .next t) :=
  ⟨by decide, by decide, by decide, ⟨rfl, rfl, next_with (by decide)⟩, rfl, rfl, step_completes rfl⟩

/-- `IdleCycleRunsThePendingRelease`: nothing pending, a release that blanks, and one that cannot. -/
theorem witness_idleCycle :
    (noReset ready ∧ ready.seq.phase = .idle ∧ ready.seq.relPend = false ∧ (∃ h, hostEdge ready = .next h) ∧
      ∃ t, step ready = .next t) ∧
    (noReset releasing ∧ releasing.seq.phase = .idle ∧ releasing.seq.relPend = true ∧ releasing.backend = .enabled ∧
      releasing.seq.periodValid = true ∧ cfgOk releasing.params releasing.frameRegs = true ∧
      ∃ t, step releasing = .next t) ∧
    (let s := { noWindow with seq := { noWindow.seq with relPend := true } }
     noReset s ∧ s.seq.phase = .idle ∧ s.seq.relPend = true ∧ s.backend = .enabled ∧
      ¬ (s.seq.periodValid = true ∧ cfgOk s.params s.frameRegs = true) ∧ ∃ t, step s = .next t) :=
  ⟨⟨rfl, rfl, rfl, hostEdge_completes _, step_completes rfl⟩,
    ⟨rfl, rfl, rfl, rfl, rfl, by decide, step_completes rfl⟩, rfl, rfl, rfl, rfl, by decide, step_completes rfl⟩

/-- `FlagUpdatePerCycle`, `LastErrPriority`: all the flags' events, at the boundary positions 8, 16 and 25. -/
theorem witness_flagUpdate :
    (noReset frameLast ∧ frameEnds frameLast ∧ ∃ t, step frameLast = .next t ∧ t.flags.getLsbD 8 = true) ∧
    (noReset lateMismatch ∧ slotOverruns lateMismatch ∧ readbackMismatches lateMismatch ∧
      ∃ t, step lateMismatch = .next t ∧ t.flags.getLsbD 25 = true) ∧
    (let s := withAccess false 0x001C#13 0#32 inSlot
     noReset s ∧ (∃ h, hostEdge s = .next h ∧ hostErred h = true) ∧ ∃ t, step s = .next t ∧ t.flags.getLsbD 16 = true) ∧
    (let s := withAccess true 0x00C#13 0x01000000#32 { ready with flags := 0x01000000#32 }
     noReset s ∧ hostWrites s 0x00C#13 0x01000000#32 ∧ ∃ t, step s = .next t ∧ (!t.flags.getLsbD 24) = true) :=
  ⟨⟨rfl, by decide, next_with (by decide)⟩, ⟨rfl, by decide, by decide, next_with (by decide)⟩,
    ⟨rfl, next_with (by decide), next_with (by decide)⟩, rfl, by decide, next_with (by decide)⟩

/-- `LastErrPriority`, the clauses without a host error: an overrun, a mismatch alone, neither; and a state with the lock. -/
theorem witness_lastErr :
    (Inv inSlot ∧ inSlot.mapRegs.feat.getLsbD 8 = true) ∧
    (∃ h t, noReset lateMismatch ∧ hostEdge lateMismatch = .next h ∧ step lateMismatch = .next t ∧ hostErred h = false ∧
      slotOverruns lateMismatch) ∧
    (let s := { lateMismatch with seq := { lateMismatch.seq with hc := 1, hold := 9 } }
     ∃ h t, noReset s ∧ hostEdge s = .next h ∧ step s = .next t ∧ hostErred h = false ∧ ¬ slotOverruns s ∧
      readbackMismatches s) ∧
    (∃ h t, noReset ready ∧ hostEdge ready = .next h ∧ step ready = .next t ∧ hostErred h = false ∧
      ¬ slotOverruns ready ∧ ¬ readbackMismatches ready) := by
  refine ⟨⟨inv_inSlot, by decide⟩, ?_, ?_, ?_⟩
  · obtain ⟨t, ht⟩ := step_completes (s := lateMismatch) rfl
    exact ⟨_, t, rfl, rfl, ht, rfl, by decide⟩
  · obtain ⟨t, ht⟩ := step_completes (s := { lateMismatch with seq := { lateMismatch.seq with hc := 1, hold := 9 } }) rfl
    exact ⟨_, t, rfl, rfl, ht, rfl, by decide, by decide⟩
  · obtain ⟨t, ht⟩ := step_completes (s := ready) rfl
    exact ⟨_, t, rfl, rfl, ht, rfl, by decide, by decide⟩

/-- `StateChangesAreTheTable`: a step for each change of STATE. -/
theorem witness_stateChanges :
    (∃ t, step (withRst inSlot) = .next t ∧ decide (t.backend = .uninitialized) = true) ∧
    (∃ t, step (withAccess true 0x014#13 1#32 closed0) = .next t ∧ decide (t.backend = .enabled) = true) ∧
    (∃ t, step (withAccess true 0x014#13 3#32 ready) = .next t ∧ decide (t.backend = .transmitting) = true) ∧
    (∃ t, step releasing = .next t ∧ decide (t.backend = .transmitting) = true) ∧
    (∃ t, step (withAccess true 0x014#13 4#32 ready) = .next t ∧ decide (t.backend = .disabled) = true) ∧
    (∃ t, step frameLast = .next t ∧ decide (t.backend = .enabled) = true) ∧
    (∃ t, step blankLast = .next t ∧ decide (t.backend = .disabled) = true) ∧
    Inv (withRst inSlot) ∧ Inv (withAccess true 0x014#13 1#32 closed0) ∧ Inv (withAccess true 0x014#13 3#32 ready) ∧
    Inv (withAccess true 0x014#13 4#32 ready) :=
  ⟨next_with (by decide), next_with (by decide), next_with (by decide), next_with (by decide), next_with (by decide),
    next_with (by decide), next_with (by decide), inv_pins inv_inSlot _ _, inv_pins inv_closed0 _ _,
    inv_pins inv_ready _ _, inv_pins inv_ready _ _⟩

/-- `DisabledIsTerminal`: with a command, too. -/
theorem witness_disabled :
    let s := withAccess true 0x014#13 2#32 disabled0
    Inv s ∧ noReset s ∧ s.backend = .disabled ∧ (∃ t, step s = .next t) ∧
    (0x10FC#13).toNat % 4 = 0 ∧ 0x1000 ≤ (0x10FC#13).toNat ∧ (0x10FC#13).toNat < 0x1000 + 4 * s.params.maxLeds ∧
    Inv (withRst disabled0) ∧ (hostNow (withRst disabled0)).rst = true :=
  ⟨inv_pins inv_disabled0 _ _, rfl, rfl, step_completes rfl, by decide, by decide, by decide, inv_pins inv_disabled0 _ _, rfl⟩

/-- `InputsOfAFrameAreFrozen`: a pixel write during a frame. -/
theorem witness_inputsFrozen :
    let s := withAccess true 0x1000#13 0#32 inSlot
    noReset s ∧ s.backend ≠ .uninitialized ∧ s.busy = true ∧ ∃ t, step s = .next t :=
  ⟨rfl, by decide, by decide, step_completes rfl⟩

/-- `FrameCounterCountsFrameEnds`: at its wrap, in a cycle without a frame end, and under `rst`. -/
theorem witness_frameCounter :
    (let s := { frameLast with frameCnt := 0xFFFFFFFF#32 }
     noReset s ∧ frameEnds s ∧ ∃ t, step s = .next t) ∧
    (noReset inSlot ∧ ¬ frameEnds inSlot ∧ ∃ t, step inSlot = .next t) ∧
    ((hostNow (withRst frameLast)).rst = true ∧ ∃ t, step (withRst frameLast) = .next t) :=
  ⟨⟨rfl, by decide, step_completes rfl⟩, ⟨rfl, by decide, step_completes rfl⟩, rfl, step_completes rfl⟩

/-- `RbDutyIsTheLastReadback`: a readback, and the cycles that have none. -/
theorem witness_rbDuty :
    (Inv lateMismatch ∧ noReset lateMismatch ∧ completes lateMismatch .rdDuty ∧ ∃ t, step lateMismatch = .next t) ∧
    (Inv inSlot ∧ noReset inSlot ∧ ¬ completes inSlot .rdDuty ∧ inSlot.frameRegs.ctrl.getLsbD 0 = false ∧
      ∃ t, step inSlot = .next t) ∧
    (Inv ready ∧ ready.backend ≠ .transmitting ∧ ∃ t, step ready = .next t) :=
  ⟨⟨inv_lateMismatch, rfl, by decide, step_completes rfl⟩, ⟨inv_inSlot, rfl, by decide, by decide, step_completes rfl⟩,
    inv_ready, by decide, step_completes rfl⟩

/-- `SlotLastsItsHoldOrItsOperations`: 120 cycles of a ONE, every transaction acknowledged. -/
theorem witness_slotLasts :
    let s := { inSlot with dsIn := List.replicate 120 (ackPins 0#32) }
    Inv s ∧ s.seq.phase = .slot ∧ s.seq.hc = 0 ∧ s.seq.ops = slotOps s ∧ (∀ p ∈ s.hostIn, p = { rst := false, acc := none }) ∧
      120 = max s.seq.hold (slotOps s).length ∧ 120 ≤ s.dsIn.length ∧ ∀ d ∈ s.dsIn.take 120, d.ack = true :=
  ⟨inv_pins inv_inSlot _ _, rfl, rfl, by decide, by simp [inSlot, inPro, ready, opened, closed0, reset0, State.resetWith],
    by decide, by simp, by simp [ackPins]⟩

/-- The last row of L2.6 with L = 0: one slot of no time and four operations. -/
def shortFrame : State :=
  { ready with
    frameRegs := { frame1 with ledCount := 0#32, resetLow := 0#32 }
    hostIn := [{ rst := false, acc := some (accessWord true 0x014#13 3#32) }]
    dsIn := List.replicate 8 (ackPins 0#32) }

/-- `FrameTakesTheCyclesOfItsSlots`. -/
theorem witness_frameTakes :
    Inv shortFrame ∧
    shortFrame.hostIn = { rst := false, acc := some (accessWord true 0x014#13 0x00000003#32) } :: [] ∧
    shortFrame.backend = .enabled ∧ shortFrame.busy = false ∧ shortFrame.seq.periodValid = true ∧
    cfgOk shortFrame.params shortFrame.frameRegs = true ∧
    4 = ((List.range (frameLength shortFrame.frameRegs.leds shortFrame.frameRegs.window)).map (fun k =>
      max (pulseHold shortFrame.params (toPulse shortFrame.frameRegs
        (frameSym (readPixel shortFrame) shortFrame.frameRegs.leds shortFrame.frameRegs.window k)))
        (slotOps shortFrame).length)).sum ∧
    4 + 4 ≤ shortFrame.dsIn.length ∧ ∀ d ∈ shortFrame.dsIn.take 8, d.ack = true := by
  refine ⟨by constructor <;> decide, rfl, rfl, rfl, rfl, by decide, by decide, by decide, by decide⟩

end Sys2Proof.Machine.Tests
end

section
/-! PROOFS of the statements about the scope: how one step is put together from the access and the sequencer's part
(R13, R48, R107). -/

namespace Sys2Proof.Machine

/-- The pins at the head of the host's list are the pins of this cycle. -/
theorem hostNow_of_hostIn {s : State} {p : HostIn} {rest : List HostIn} (hin : s.hostIn = p :: rest) :
    hostNow s = p := by
  simp [hostNow, hin]

theorem fetchAccess_of_acc {s : State} {a : AccessWord} (ha : (hostNow s).acc = some a) :
    fetchAccess s = some (decodeAccess a) := by
  simp [fetchAccess, ha]

theorem hostEdge_of_fetchAccess {s : State} {i : Instr} (hf : fetchAccess s = some i) : hostEdge s = exec i s := by
  simp [hostEdge, hf]

/-- With no release pending, an idle sequencer leaves the host's edge as it is (R106). -/
theorem seqEdge_of_idle {s : State} (hp : s.seq.phase = .idle) (hr : s.seq.relPend = false) (h : State) :
    seqEdge s h = .next h := by
  simp [seqEdge, idleEdge, hp, hr]

/-- Settles O7: the host edge is `exec` of the decoded access, and the step puts the sequencer's part on it. -/
theorem stepRunsTheAccess : Obligations.StepRunsTheAccess := by
  intro s a rest i hin hi
  have hnow : hostNow s = { rst := false, acc := some a } := hostNow_of_hostIn hin
  have hr : noReset s := by rw [noReset, hnow]
  have hedge : hostEdge s = exec i s :=
    hostEdge_of_fetchAccess (hi ▸ fetchAccess_of_acc (by rw [hnow]))
  constructor
  · intro h t hexec hseq
    exact step_of_edges hr (hedge.trans hexec) hseq
  · intro h hexec hp hrel
    exact step_of_edges hr (hedge.trans hexec) (seqEdge_of_idle hp hrel h)

end Sys2Proof.Machine
end

section
/-! SUPPORT for the proofs. The clauses of the invariant phase by phase, and BUSY (R23, R44, R93 to R105). -/

namespace Sys2Proof.Machine

theorem busy_eq_false_iff {s : State} : s.busy = false ↔ s.seq.phase = .idle ∧ s.seq.relPend = false := by
  simp [State.busy]

theorem busy_of_relPend {s : State} (hr : s.seq.relPend = true) : s.busy = true := by
  simp [State.busy, hr]

theorem opsShape_idle {s : State} (hp : s.seq.phase = .idle) : opsShape s = true ↔ s.seq.ops = [] := by
  simp [opsShape, hp]

theorem opsShape_setp {s : State} (hp : s.seq.phase = .setp) : opsShape s = true ↔ s.seq.ops = [.wrPeriod] := by
  simp [opsShape, hp]

theorem opsShape_pro {s : State} (hp : s.seq.phase = .pro) :
    opsShape s = true ↔ s.seq.ops ≠ [] ∧ s.seq.ops <:+ prologueOps := by
  simp [opsShape, hp]

theorem opsShape_slot {s : State} (hp : s.seq.phase = .slot) : opsShape s = true ↔ s.seq.ops <:+ slotOps s := by
  simp [opsShape, hp]

theorem frameProgress_outside {s : State} (hp : s.seq.phase = .idle ∨ s.seq.phase = .setp) :
    frameProgress s = true ↔ s.pulsesDone = s.frameLen := by
  rcases hp with hp | hp <;> simp [frameProgress, hp]

theorem frameProgress_pro {s : State} (hp : s.seq.phase = .pro) :
    frameProgress s = true ↔
      s.pulsesDone = 0#32 ∧ s.frameLen.toNat = frameLength s.frameRegs.leds s.frameRegs.window := by
  simp [frameProgress, hp]

theorem frameProgress_slot {s : State} (hp : s.seq.phase = .slot) :
    frameProgress s = true ↔
      s.pulsesDone.toNat < s.frameLen.toNat ∧
        s.frameLen.toNat = frameLength s.frameRegs.leds s.frameRegs.window := by
  simp [frameProgress, hp]

theorem slotLoaded_outside {s : State} (hp : s.seq.phase ≠ .slot) : slotLoaded s = true := by
  unfold slotLoaded
  split
  · exact absurd ‹_› hp
  · rfl

theorem slotLoaded_slot {s : State} (hp : s.seq.phase = .slot) :
    slotLoaded s = true ↔
      s.seq.wduty = pulseDuty s.params (toPulse s.frameRegs (slotSymbol s s.pulsesDone.toNat)) ∧
      s.seq.hold = pulseHold s.params (toPulse s.frameRegs (slotSymbol s s.pulsesDone.toNat)) ∧
      (s.seq.ops = [] → s.seq.hc < s.seq.hold) := by
  simp [slotLoaded, hp, or_iff_not_imp_left]

theorem slotOps_ne_nil (s : State) : slotOps s ≠ [] := by
  cases hr : s.frameRegs.readback <;> cases hl : s.mapRegs.lockSup <;> simp [slotOps, hr, hl]

theorem ceilDiv_le_self (a : Nat) {b : Nat} (hb : 1 ≤ b) : ceilDiv a b ≤ a := by
  have hmul : a ≤ a * b := Nat.le_mul_of_pos_right a hb
  rw [ceilDiv, ← Nat.lt_succ_iff, Nat.div_lt_iff_lt_mul hb, Nat.succ_mul]
  omega

theorem frameLength_pos (leds w : Nat) : 0 < frameLength leds w := by
  simp [frameLength]

/-- A configured frame's length fits FRAME_LEN (R39, R84). -/
theorem frameLength_lt {p : Params} (hl : p.legal) {f : FrameRegs} (hc : cfgOk p f = true) :
    frameLength f.leds f.window < 2 ^ 32 := by
  obtain ⟨⟨-, hmax⟩, -⟩ := hl
  obtain ⟨hw, hleds⟩ : 1 ≤ f.window ∧ f.leds ≤ p.maxLeds := by simpa [cfgOk] using hc
  have hgaps := ceilDiv_le_self (24 * f.leds) hw
  simp only [frameLength]
  omega

namespace Inv
variable {s : State}

theorem enabled_of_relPend (hi : Inv s) (hp : s.seq.phase = .idle) (hr : s.seq.relPend = true) :
    s.backend = .enabled := by
  have hclosed := hi.closedIdle
  have htrans := hi.transmittingIff
  cases hb : s.backend <;> simp_all

theorem not_transmitting_of_idle (hi : Inv s) (hp : s.seq.phase = .idle) : s.backend ≠ .transmitting := by
  simp [hi.transmittingIff, hp]

theorem idle_of_uninitialized (hi : Inv s) (hu : s.backend = .uninitialized) : s.seq.phase = .idle := by
  have htrans := hi.transmittingIff
  have hsetp := hi.setpEnabled
  cases hp : s.seq.phase <;> simp_all

theorem not_uninitialized_of_busy (hi : Inv s) (hb : s.busy = true) : s.backend ≠ .uninitialized := by
  intro hu
  have hfree : s.busy = false := busy_eq_false_iff.2 ⟨hi.idle_of_uninitialized hu, hi.closedIdle (.inl hu)⟩
  simp [hfree] at hb

end Inv

end Sys2Proof.Machine
end

section
/-! SUPPORT for the proofs. The invariant over each thing the host can do (R111 to R132). -/

namespace Sys2Proof.Machine

theorem errCode_le (e : ErrCode) : (BitVec.ofNat 4 e.code).toNat ≤ 10 := by
  cases e <;> decide

theorem errFlag_res0 (e : ErrCode) : e.flag &&& ~~~0x03FF0100#32 = 0#32 := by
  cases e <;> decide

theorem or_and_eq_zero {f g m : Word} (hf : f &&& m = 0#32) (hg : g &&& m = 0#32) : (f ||| g) &&& m = 0#32 := by
  rw [BitVec.and_comm, BitVec.and_or_distrib_left, BitVec.and_comm m, BitVec.and_comm m, hf, hg, BitVec.or_self]

theorem and_and_eq_zero {f m : Word} (hf : f &&& m = 0#32) (g : Word) : f &&& g &&& m = 0#32 := by
  rw [BitVec.and_assoc, BitVec.and_comm g, ← BitVec.and_assoc, hf, BitVec.zero_and]

theorem masked_res0 (d m : Word) : d &&& m &&& ~~~m = 0#32 := by
  rw [BitVec.and_assoc, BitVec.and_not_self]
  exact BitVec.and_zero

/-- Outside the frame group, the map group and IRQ_EN a store leaves the state alone (R132). -/
theorem storeCsr_eq (r : Csr) (d : Word) (s : State) :
    storeCsr r d s = { s with
      frameRegs := (storeCsr r d s).frameRegs
      mapRegs := (storeCsr r d s).mapRegs
      irqEn := (storeCsr r d s).irqEn } := by
  cases r <;> rfl

/-- A store leaves no res0 bit set (R22, R25, R34, R35, R132). -/
theorem storeCsr_res0 (r : Csr) (d : Word) {s : State} (hi : Inv s) :
    (storeCsr r d s).frameRegs.ctrl &&& ~~~0x00000001#32 = 0#32 ∧
    (storeCsr r d s).mapRegs.offs &&& ~~~0x00FFFFFF#32 = 0#32 ∧
    (storeCsr r d s).mapRegs.feat &&& ~~~0x0000011F#32 = 0#32 ∧
    (storeCsr r d s).irqEn &&& ~~~0x03FF0100#32 = 0#32 := by
  cases r with
  | ctrl => exact ⟨masked_res0 _ _, hi.offsRes0, hi.featRes0, hi.irqEnRes0⟩
  | irqEn => exact ⟨hi.ctrlRes0, hi.offsRes0, hi.featRes0, masked_res0 _ _⟩
  | pwmOffs => exact ⟨hi.ctrlRes0, masked_res0 _ _, hi.featRes0, hi.irqEnRes0⟩
  | pwmFeat => exact ⟨hi.ctrlRes0, hi.offsRes0, masked_res0 _ _, hi.irqEnRes0⟩
  | _ => exact ⟨hi.ctrlRes0, hi.offsRes0, hi.featRes0, hi.irqEnRes0⟩

namespace Inv
variable {s : State}

/-- In the idle phase the configuration may take any value, but for res0 bits and the map after OPEN (R43, R130). -/
theorem configured (hi : Inv s) (hp : s.seq.phase = .idle) {f : FrameRegs} {m : MapRegs} {q : Word}
    (hctrl : f.ctrl &&& ~~~0x00000001#32 = 0#32) (hoffs : m.offs &&& ~~~0x00FFFFFF#32 = 0#32)
    (hfeat : m.feat &&& ~~~0x0000011F#32 = 0#32) (hirq : q &&& ~~~0x03FF0100#32 = 0#32)
    (hmap : s.backend ≠ .uninitialized → m = s.mapRegs) :
    Inv { s with frameRegs := f, mapRegs := m, irqEn := q } :=
  { hi with
    ctrlRes0 := hctrl
    offsRes0 := hoffs
    featRes0 := hfeat
    irqEnRes0 := hirq
    mapValid := fun hb => (hmap hb).symm ▸ hi.mapValid hb
    frameConfigured := fun hb => absurd hb (hi.not_transmitting_of_idle hp)
    ops := (opsShape_idle (by exact hp)).2 ((opsShape_idle hp).1 hi.ops)
    progress := (frameProgress_outside (.inl (by exact hp))).2 ((frameProgress_outside (.inl hp)).1 hi.progress)
    slot := slotLoaded_outside (by simp [hp]) }

theorem stored (hi : Inv s) {r : Csr} (d : Word) (hr : r = .irqEn ∨ r.inMapGroup = true ∨ r.inFrameGroup = true)
    (hm : r.inMapGroup = true → s.backend = .uninitialized) (hf : r.inFrameGroup = true → s.busy = false) :
    Inv (storeCsr r d s) := by
  have hgroup : r = .irqEn ∨ s.seq.phase = .idle :=
    hr.imp_right fun h => h.elim (fun h => hi.idle_of_uninitialized (hm h))
      (fun h => (busy_eq_false_iff.1 (hf h)).1)
  rcases hgroup with rfl | hp
  · exact { hi with irqEnRes0 := masked_res0 _ _ }
  · obtain ⟨hctrl, hoffs, hfeat, hirq⟩ := storeCsr_res0 r d hi
    rw [storeCsr_eq]
    exact hi.configured hp hctrl hoffs hfeat hirq fun hb => storeCsr_mapRegs (by simpa using mt hm hb) d s

theorem raised (hi : Inv s) (e : ErrCode) (r : Option HostResp) :
    Inv { s with flags := s.flags ||| e.flag, lastErr := BitVec.ofNat 4 e.code, resp := r } :=
  { hi with
    flagsRes0 := or_and_eq_zero hi.flagsRes0 (errFlag_res0 e)
    errKnown := errCode_le e }

/-- A write of a pixel entry stores no res0 byte and stays in the window (R41, R47). -/
theorem pixelWritten (hi : Inv s) (hb : s.busy = false) {k : Nat} (hk : k < s.params.maxLeds) (v : Pixel) :
    Inv (writePixel k v s) :=
  { hi with
    pixCanonical := writePixel_wf k v hi.pixCanonical
    pixInRange := by
      intro c hc
      simp only [writePixel_params]
      rcases mem_write hc with rfl | hc
      · simp only [pixAddr]; omega
      rcases mem_write hc with rfl | hc
      · simp only [pixAddr]; omega
      rcases mem_write hc with rfl | hc
      · simp only [pixAddr]; omega
      · exact hi.pixInRange c hc
    slot := slotLoaded_outside (by simp [(busy_eq_false_iff.1 hb).1]) }

/-- A frame started on a checked configuration (R95). -/
theorem frameStarted (hi : Inv s) (hs : s.backend = .enabled) (hr : s.seq.relPend = false)
    (hv : s.seq.periodValid = true) (hc : cfgOk s.params s.frameRegs = true) (b : Bool) :
    Inv (startFrame b b s s) :=
  { hi with
    transmittingIff := by simp
    setpEnabled := by simp
    closedIdle := by simp
    periodAfterOpen := by simp
    mapValid := fun _ => hi.mapValid (by simp [hs])
    finalInFrame := fun _ => ⟨rfl, hr⟩
    blankIsFinal := rfl
    frameConfigured := fun _ => ⟨hv, hc⟩
    ops := (opsShape_pro rfl).2 ⟨by simp [prologueOps], List.suffix_refl _⟩
    progress := (frameProgress_pro rfl).2 ⟨rfl, by
      simpa using Nat.mod_eq_of_lt (frameLength_lt hi.legalParams hc)⟩
    slot := slotLoaded_outside (by simp) }

/-- CLOSE, or a release that has nothing to blank (R118, R119). -/
theorem disabled (hi : Inv s) (hs : s.backend = .enabled) (hp : s.seq.phase = .idle) (hr : s.seq.relPend = false) :
    Inv { s with backend := .disabled } :=
  { hi with
    transmittingIff := by simp [hp]
    setpEnabled := by simp [hp]
    closedIdle := fun _ => hr
    periodAfterOpen := by simp
    mapValid := fun _ => hi.mapValid (by simp [hs])
    finalInFrame := fun hf => by simp [(hi.finalInFrame hf).1] at hs
    frameConfigured := by simp }

theorem released (hi : Inv s) (hs : s.backend = .enabled) (hp : s.seq.phase = .idle) (hr : s.seq.relPend = false) :
    Inv (releaseAction s s) := by
  unfold releaseAction
  split
  · next hc =>
    obtain ⟨hv, hc⟩ := Bool.and_eq_true_iff.1 hc
    exact hi.frameStarted hs hr hv hc true
  · exact hi.disabled hs hp hr

theorem opened (hi : Inv s) (hs : s.backend = .uninitialized) (hm : s.mapRegs.ok = true) :
    Inv { s with backend := .enabled } :=
  { hi with
    transmittingIff := by simp [hi.idle_of_uninitialized hs]
    setpEnabled := by simp
    closedIdle := by simp
    periodAfterOpen := by simp
    mapValid := fun _ => hm
    finalInFrame := fun hf => by simp [(hi.finalInFrame hf).1] at hs
    frameConfigured := by simp }

theorem periodStarted (hi : Inv s) (hs : s.backend = .enabled) (hp : s.seq.phase = .idle) :
    Inv { s with seq := { s.seq with ops := [.wrPeriod], phase := .setp } } :=
  { hi with
    transmittingIff := by simp [hs]
    setpEnabled := fun _ => hs
    ops := (opsShape_setp rfl).2 rfl
    progress := (frameProgress_outside (.inr rfl)).2 ((frameProgress_outside (.inl hp)).1 hi.progress)
    slot := slotLoaded_outside (by simp) }

theorem releasePended (hi : Inv s) (hs : s.backend = .enabled ∨ s.backend = .transmitting) (hf : s.seq.final = false) :
    Inv { s with seq := { s.seq with relPend := true } } :=
  { hi with
    closedIdle := by rcases hs with hs | hs <;> simp [hs]
    finalInFrame := by simp [hf] }

theorem answered (hi : Inv s) (r : Option HostResp) : Inv { s with resp := r } := { hi with }

end Inv

/-- A host access or command keeps the invariant. -/
theorem HostEffect.keeps_inv {i : Instr} {s h : State} (e : HostEffect i s h) (hi : Inv s) : Inv h := by
  cases e with
  | answer v => exact hi.answered _
  | reject e v _ => exact hi.raised e _
  | clear d _ => exact { hi with flagsRes0 := and_and_eq_zero hi.flagsRes0 _ }
  | store r d hr hm hf => exact (hi.stored d hr hm hf).answered _
  | pixel k v hk hb => exact (hi.pixelWritten hb hk v).answered _
  | opened _ _ hs hm => exact (hi.opened hs hm).answered _
  | periodStarted hb hs => exact (hi.periodStarted hs (busy_eq_false_iff.1 hb).1).answered _
  | transmitted _ hb hs hv hc =>
    exact (hi.frameStarted hs (busy_eq_false_iff.1 hb).2 hv hc false).answered _
  | closed _ hb hs =>
    obtain ⟨hp, hr⟩ := busy_eq_false_iff.1 hb
    exact (hi.disabled hs hp hr).answered _
  | releasePended hs _ _ hf => exact (hi.releasePended hs hf).answered _
  | released _ hs hb =>
    obtain ⟨hp, hr⟩ := busy_eq_false_iff.1 hb
    exact (hi.released (hs.resolve_right (hi.not_transmitting_of_idle hp)) hp hr).answered _

theorem HostEdge.keeps_inv {s h : State} (e : HostEdge s h) (hi : Inv s) : Inv h := by
  cases e with
  | quiet => exact hi.answered _
  | access i _ _ he => exact he.keeps_inv hi


end Sys2Proof.Machine
end

section
/-! SUPPORT for the proofs. The invariant over each thing the sequencer can do, on the edge of any host access (R93 to
R108). -/

namespace Sys2Proof.Machine

/-- One cycle on the downstream port takes the acknowledged operation off the list; beside that it only records: a value
read, a mismatch, the transaction (R93, R94, R102). -/
theorem driveOps_shape (s h : State) : ∃ f l b t c,
    driveOps s h = { h with
      flags := f, lastErr := l, rbDuty := b, trace := t, seq := { h.seq with ops := opsLeft s, cval := c } } ∧
    (h.flags &&& ~~~0x03FF0100#32 = 0#32 → f &&& ~~~0x03FF0100#32 = 0#32) ∧
    (h.lastErr.toNat ≤ 10 → l.toNat ≤ 10) := by
  refine ⟨_, _, _, _, _, driveOps_eq s h, fun hf => ?_, fun hl => ?_⟩
  · split
    · exact or_and_eq_zero hf (errFlag_res0 _)
    · exact hf
  · split
    · split
      · exact hl
      · decide
    · exact hl

/-- The edge that ends a slot does the same, and counts the cycle and the pulse (R100, R101, R103). -/
theorem slotClosed_shape (s h : State) : ∃ f l b t c,
    slotClosed s h = { h with
      flags := f, lastErr := l, rbDuty := b, trace := t
      pulsesDone := BitVec.ofNat 32 (s.pulsesDone.toNat + 1)
      seq := { h.seq with ops := opsLeft s, cval := c, hc := s.seq.hc + 1 } } ∧
    (h.flags &&& ~~~0x03FF0100#32 = 0#32 → f &&& ~~~0x03FF0100#32 = 0#32) ∧
    (h.lastErr.toNat ≤ 10 → l.toNat ≤ 10) := by
  obtain ⟨f, l, b, t, c, hd, hf, hl⟩ := driveOps_shape s h
  rw [slotClosed_eq, hd]
  refine ⟨_, _, b, t, c, rfl, fun hh => ?_, fun hh => ?_⟩
  · split
    · exact or_and_eq_zero (hf hh) (errFlag_res0 _)
    · exact hf hh
  · split
    · split
      · exact hl hh
      · decide
    · exact hl hh

namespace Inv
variable {s : State}

/-- The sequencer's records: a flag raised, LAST_ERR, the values read, the transaction (R93, R102, R136). -/
theorem recorded (hi : Inv s) {f : Word} {l : BitVec 4}
    (hf : s.flags &&& ~~~0x03FF0100#32 = 0#32 → f &&& ~~~0x03FF0100#32 = 0#32)
    (hl : s.lastErr.toNat ≤ 10 → l.toNat ≤ 10) (b : Word) (t : List DsTxn) (c : Word) :
    Inv { s with flags := f, lastErr := l, rbDuty := b, trace := t, seq := { s.seq with cval := c } } :=
  { hi with
    flagsRes0 := hf hi.flagsRes0
    errKnown := hl hi.errKnown }

/-- Operations come off the list of SET_PERIOD or of the prologue (R96, R105). -/
theorem running (hi : Inv s) (hp : s.seq.phase = .setp ∨ s.seq.phase = .pro) {ops : List Op} (hne : ops ≠ [])
    (hsuf : ops <:+ s.seq.ops) : Inv { s with seq := { s.seq with ops := ops } } :=
  { hi with
    ops := by
      rcases hp with hp | hp
      · rw [(opsShape_setp hp).1 hi.ops, List.suffix_cons_iff] at hsuf
        exact (opsShape_setp (by exact hp)).2 (hsuf.resolve_right (by simpa using hne))
      · obtain ⟨-, hpro⟩ := (opsShape_pro hp).1 hi.ops
        exact (opsShape_pro (by exact hp)).2 ⟨hne, hsuf.trans hpro⟩
    slot := slotLoaded_outside (by rcases hp with hp | hp <;> simp [hp]) }

/-- A slot goes on, its hold still running once its operations are done (R100). -/
theorem slotHeld (hi : Inv s) (hp : s.seq.phase = .slot) {ops : List Op} (hsuf : ops <:+ s.seq.ops) {hc : Nat}
    (hhold : ops = [] → hc < s.seq.hold) : Inv { s with seq := { s.seq with ops := ops, hc := hc } } :=
  { hi with
    ops := (opsShape_slot (by exact hp)).2 (hsuf.trans ((opsShape_slot hp).1 hi.ops))
    slot := by
      obtain ⟨hduty, hold, -⟩ := (slotLoaded_slot hp).1 hi.slot
      exact (slotLoaded_slot (by exact hp)).2 ⟨hduty, hold, hhold⟩ }

theorem periodSet (hi : Inv s) (hp : s.seq.phase = .setp) :
    Inv { s with seq := { s.seq with ops := [], periodValid := true, phase := .idle } } :=
  { hi with
    transmittingIff := by simp [hi.setpEnabled hp]
    setpEnabled := fun _ => hi.setpEnabled hp
    periodAfterOpen := by simp [hi.setpEnabled hp]
    frameConfigured := by simp [hi.setpEnabled hp]
    ops := (opsShape_idle rfl).2 rfl
    progress := (frameProgress_outside (.inl rfl)).2 ((frameProgress_outside (.inr hp)).1 hi.progress)
    slot := slotLoaded_outside (by simp) }

/-- A slot of the frame is loaded with the symbol of its number (R97). -/
theorem slotStarted (hi : Inv s) (hs : s.backend = .transmitting)
    (hlen : s.frameLen.toNat = frameLength s.frameRegs.leds s.frameRegs.window) {k : Nat} (hk : k < s.frameLen.toNat)
    {n : Word} (hn : n.toNat = k) (ops : List Op) (hc : Nat) :
    Inv (loadSlot s { s with pulsesDone := n, seq := { s.seq with ops := ops, hc := hc } }
      (toPulse s.frameRegs (slotSymbol s k))) := by
  subst hn
  exact
  { hi with
    wireFree := rfl
    transmittingIff := by simp [hs]
    setpEnabled := by simp
    ops := (opsShape_slot rfl).2 (List.suffix_refl _)
    progress := (frameProgress_slot rfl).2 ⟨hk, hlen⟩
    slot := (slotLoaded_slot rfl).2 ⟨rfl, rfl, fun h => absurd h (slotOps_ne_nil s)⟩ }

/-- The frame ends with all its pulses done, and a final one in DISABLED (R104). -/
theorem frameEnded (hi : Inv s) (hs : s.backend = .transmitting) (ops : List Op) (hc : Nat) :
    Inv (frameEnd s { s with pulsesDone := s.frameLen, seq := { s.seq with ops := ops, hc := hc } }) :=
  { hi with
    flagsRes0 := or_and_eq_zero hi.flagsRes0 (by decide)
    transmittingIff := by cases hf : s.seq.final <;> simp [hf]
    setpEnabled := by simp
    closedIdle := by
      cases hf : s.seq.final with
      | false => simp [hf]
      | true => exact fun _ => (hi.finalInFrame hf).2
    periodAfterOpen := by cases hf : s.seq.final <;> simp [hf]
    mapValid := fun _ => hi.mapValid (by simp [hs])
    finalInFrame := by simp
    blankIsFinal := rfl
    frameConfigured := by cases hf : s.seq.final <;> simp [hf]
    ops := (opsShape_idle rfl).2 rfl
    progress := (frameProgress_outside (.inl rfl)).2 rfl
    slot := slotLoaded_outside (by simp) }

theorem symbol_eq (hi : Inv s) {k : Nat} {y : Symbol} (hy : symbolOfCode (symbolAt s k) = some y) :
    y = slotSymbol s k := by
  simpa [symbolAt, hi.wireFree, symbolOfCode_toCode] using hy.symm

theorem releaseCleared (hi : Inv s) : Inv { s with seq := { s.seq with relPend := false } } :=
  { hi with
    closedIdle := fun _ => rfl
    finalInFrame := fun hf => ⟨(hi.finalInFrame hf).1, rfl⟩ }

end Inv

/-- `s` with all that a host access can reach while the sequencer works (R108): flags, LAST_ERR, IRQ_EN, the response, and
whether a release is pending. -/
def hostTouched (s : State) (f : Word) (l : BitVec 4) (q : Word) (r : Option HostResp) (p : Bool) : State :=
  { s with flags := f, lastErr := l, irqEn := q, resp := r, seq := { s.seq with relPend := p } }

theorem HostEdge.eq_hostTouched {s h : State} (e : HostEdge s h) (hb : s.busy = true)
    (hs : s.backend ≠ .uninitialized) : ∃ f l q r p, h = hostTouched s f l q r p := by
  obtain ⟨h1, h2, h3, h4, h5, h6, h7, h8, h9, h10, h11, h12, h13, h14, p, h15⟩ := e.while_busy hb hs
  refine ⟨h.flags, h.lastErr, h.irqEn, h.resp, p, ?_⟩
  rw [hostTouched, ← h1, ← h2, ← h3, ← h4, ← h5, ← h6, ← h7, ← h8, ← h9, ← h10, ← h11, ← h12, ← h13, ← h14, ← h15]

/-- Where the block is not BUSY the sequencer does nothing (R44, R106). -/
theorem SeqEffect.eq_of_not_busy {s h u : State} (x : SeqEffect s h u) (hb : s.busy = false) : u = h := by
  obtain ⟨hp, hr⟩ := busy_eq_false_iff.1 hb
  cases x with
  | idle => rfl
  | release _ hr' => simp [hr] at hr'
  | running hp' | holding hp' | periodSet hp' | firstSlot hp' => simp [hp] at hp'
  | nextSlot he => simp [slotEnds, hp] at he
  | frameEnded he => simp [frameEnds, slotEnds, hp] at he

/-- While BUSY the sequencer keeps the invariant, on the edge of any host access of its cycle. -/
theorem SeqEffect.keeps_inv_of_busy {s h u : State} (x : SeqEffect s h u) (e : HostEdge s h) (hs : Inv s)
    (hb : s.busy = true) : Inv u := by
  have hh : Inv h := e.keeps_inv hs
  obtain ⟨f, l, q, r, p, rfl⟩ := e.eq_hostTouched hb (hs.not_uninitialized_of_busy hb)
  obtain ⟨f₁, l₁, b₁, t₁, c₁, hdrive, hf₁, hl₁⟩ := driveOps_shape s (hostTouched s f l q r p)
  obtain ⟨f₂, l₂, b₂, t₂, c₂, hclose, hf₂, hl₂⟩ := slotClosed_shape s (hostTouched s f l q r p)
  have hdriven := hh.recorded hf₁ hl₁ b₁ t₁ c₁
  have hclosed := hh.recorded hf₂ hl₂ b₂ t₂ c₂
  cases x with
  | idle => exact hh
  | release hp hr => exact hh.releaseCleared.released (hs.enabled_of_relPend hp hr) hp rfl
  | running hp ho =>
    rw [hdrive]
    exact hdriven.running hp ho (opsLeft_suffix s)
  | holding hp he =>
    have hhold : opsLeft s = [] → s.seq.hc + 1 < s.seq.hold := fun ho =>
      Nat.lt_of_not_le fun hle => he ⟨hp, ho, hle⟩
    rw [hdrive]
    exact hdriven.slotHeld hp (opsLeft_suffix s) hhold
  | periodSet hp ho =>
    rw [hdrive, ho]
    exact hdriven.periodSet hp
  | firstSlot hp ho y hy =>
    obtain ⟨hzero, hlen⟩ := (frameProgress_pro hp).1 hs.progress
    rw [hdrive, hs.symbol_eq hy]
    exact hdriven.slotStarted (hs.transmittingIff.2 (.inl hp)) hlen (hlen ▸ frameLength_pos _ _)
      (congrArg BitVec.toNat hzero) _ _
  | nextSlot he hk y hy =>
    obtain ⟨hp, -, -⟩ := he
    obtain ⟨-, hlen⟩ := (frameProgress_slot hp).1 hs.progress
    rw [hclose, hs.symbol_eq hy]
    exact hclosed.slotStarted (hs.transmittingIff.2 (.inr hp)) hlen hk
      ((BitVec.toNat_ofNat _ _).trans (Nat.mod_eq_of_lt (hk.trans s.frameLen.isLt))) _ _
  | frameEnded he =>
    obtain ⟨⟨hp, -, -⟩, hlast⟩ := he
    obtain ⟨hk, -⟩ := (frameProgress_slot hp).1 hs.progress
    have hdone : BitVec.ofNat 32 (s.pulsesDone.toNat + 1) = s.frameLen := by
      rw [show s.pulsesDone.toNat + 1 = s.frameLen.toNat by omega, BitVec.ofNat_toNat, BitVec.setWidth_eq]
    rw [hclose, hdone]
    exact hclosed.frameEnded (hs.transmittingIff.2 (.inr hp)) _ _

theorem SeqEffect.keeps_inv {s h u : State} (x : SeqEffect s h u) (e : HostEdge s h) (hs : Inv s) : Inv u := by
  cases hb : s.busy with
  | false => exact x.eq_of_not_busy hb ▸ e.keeps_inv hs
  | true => exact x.keeps_inv_of_busy e hs hb

end Sys2Proof.Machine
end

section
/-! PROOFS of the statements about the invariant (R46, R149). -/

namespace Sys2Proof.Machine

/-- Settles O55: in the reset state every clause is about zeros, the idle phase or UNINITIALIZED. -/
theorem invHoldsAtReset : Obligations.InvHoldsAtReset := by
  intro p hl
  exact {
    legalParams := hl
    pixCanonical := rfl
    pixInRange := nofun
    wireFree := rfl
    ctrlRes0 := BitVec.zero_and
    offsRes0 := BitVec.zero_and
    featRes0 := BitVec.zero_and
    irqEnRes0 := BitVec.zero_and
    flagsRes0 := BitVec.zero_and
    errKnown := Nat.zero_le 10
    transmittingIff := ⟨nofun, nofun⟩
    setpEnabled := nofun
    closedIdle := fun _ => rfl
    periodAfterOpen := fun _ => rfl
    mapValid := fun h => absurd rfl h
    finalInFrame := nofun
    blankIsFinal := rfl
    frameConfigured := nofun
    ops := rfl
    progress := rfl
    slot := rfl }

/-- The reset edge is the reset state but for pixel RAM and the record of the outside (R149). -/
theorem Inv.rstEdge {s : State} (hi : Inv s) (acc : Option AccessWord) : Inv (rstEdge acc s) :=
  { invHoldsAtReset s.params hi.legalParams with
    pixCanonical := hi.pixCanonical
    pixInRange := hi.pixInRange }

theorem Inv.nextCycle {s : State} (hi : Inv s) : Inv (nextCycle s) := { hi with }

/-- Settles O56: the host edge keeps the invariant, the sequencer keeps it on that edge, and neither the reset edge nor
the count of cycles breaks it. -/
theorem invIsKeptByEveryStep : Obligations.InvIsKeptByEveryStep := by
  intro s t hi hstep
  rcases step_cases hstep with ⟨-, rfl⟩ | ⟨-, h, u, -, he, hu, rfl⟩
  · exact (hi.rstEdge _).nextCycle
  · exact (hu.keeps_inv he hi).nextCycle

end Sys2Proof.Machine
end

section
/-! SUPPORT for the proofs. What the two parts of a step leave alone: the frame of the host's edge and of the sequencer's
(R37, R40, R43, R108). -/

namespace Sys2Proof.Machine

@[simp] theorem driveOps_frameRegs (s h : State) : (driveOps s h).frameRegs = h.frameRegs := by rw [driveOps_eq]
@[simp] theorem driveOps_mapRegs (s h : State) : (driveOps s h).mapRegs = h.mapRegs := by rw [driveOps_eq]
@[simp] theorem driveOps_pix (s h : State) : (driveOps s h).pix = h.pix := by rw [driveOps_eq]
@[simp] theorem driveOps_frameCnt (s h : State) : (driveOps s h).frameCnt = h.frameCnt := by rw [driveOps_eq]
@[simp] theorem driveOps_rbDuty (s h : State) :
    (driveOps s h).rbDuty = if acked s .rdDuty then (dsNow s).rdata else h.rbDuty := by rw [driveOps_eq]

@[simp] theorem slotClosed_frameRegs (s h : State) : (slotClosed s h).frameRegs = h.frameRegs := by simp [slotClosed_eq]
@[simp] theorem slotClosed_mapRegs (s h : State) : (slotClosed s h).mapRegs = h.mapRegs := by simp [slotClosed_eq]
@[simp] theorem slotClosed_pix (s h : State) : (slotClosed s h).pix = h.pix := by simp [slotClosed_eq]
@[simp] theorem slotClosed_frameCnt (s h : State) : (slotClosed s h).frameCnt = h.frameCnt := by simp [slotClosed_eq]
@[simp] theorem slotClosed_rbDuty (s h : State) : (slotClosed s h).rbDuty = (driveOps s h).rbDuty := by
  rw [slotClosed_eq]

@[simp] theorem releaseAction_frameRegs (s h : State) : (releaseAction s h).frameRegs = h.frameRegs := by
  unfold releaseAction; split <;> rfl
@[simp] theorem releaseAction_mapRegs (s h : State) : (releaseAction s h).mapRegs = h.mapRegs := by
  unfold releaseAction; split <;> rfl
@[simp] theorem releaseAction_pix (s h : State) : (releaseAction s h).pix = h.pix := by
  unfold releaseAction; split <;> rfl
@[simp] theorem releaseAction_frameCnt (s h : State) : (releaseAction s h).frameCnt = h.frameCnt := by
  unfold releaseAction; split <;> rfl
@[simp] theorem releaseAction_rbDuty (s h : State) : (releaseAction s h).rbDuty = h.rbDuty := by
  unfold releaseAction; split <;> rfl

/-- The sequencer writes no configuration register and no pixel (R43, R108). -/
theorem SeqEffect.inputs {s h u : State} (x : SeqEffect s h u) :
    u.frameRegs = h.frameRegs ∧ u.mapRegs = h.mapRegs ∧ u.pix = h.pix := by
  cases x <;> simp

/-- The frame counter moves at a frame's end only (R37, R104). -/
theorem SeqEffect.frameCnt_eq {s h u : State} (x : SeqEffect s h u) :
    u.frameCnt = if frameEnds s then s.frameCnt + 1#32 else h.frameCnt := by
  cases x with
  | frameEnded he => simp [he]
  | idle hp | release hp | firstSlot hp => simp [frameEnds, slotEnds, hp]
  | running hp => rcases hp with hp | hp <;> simp [frameEnds, slotEnds, hp]
  | periodSet hp => simp [frameEnds, slotEnds, hp]
  | holding _ he => simp [frameEnds, he]
  | nextSlot _ hk => simp [frameEnds, Nat.not_le.2 hk]

/-- RB_DUTY takes what a completed duty readback returns (R40, R102). -/
theorem SeqEffect.rbDuty_eq {s h u : State} (x : SeqEffect s h u) :
    u.rbDuty = if completes s .rdDuty then (dsNow s).rdata else h.rbDuty := by
  cases x with
  | idle hp | release hp | firstSlot hp | holding hp | periodSet hp => simp [completes, acked, hp]
  | running hp => rcases hp with hp | hp <;> simp [completes, acked, hp]
  | nextSlot he => simp [completes, acked, he.1]
  | frameEnded he => simp [completes, acked, he.1.1]

/-- No access or command writes the frame counter or the readback register (R126). -/
theorem HostEdge.counters {s h : State} (e : HostEdge s h) : h.frameCnt = s.frameCnt ∧ h.rbDuty = s.rbDuty := by
  cases e with
  | quiet => simp
  | access i _ _ he =>
    cases he with
    | store r d =>
      obtain ⟨-, -, -, -, hcnt, -, -, hrb, -⟩ := storeCsr_keeps r d s
      exact ⟨hcnt, hrb⟩
    | _ => simp

/-- The lock of the map group (R130). -/
theorem HostEdge.map_frozen {s h : State} (e : HostEdge s h) (hs : s.backend ≠ .uninitialized) :
    h.mapRegs = s.mapRegs := by
  cases e with
  | quiet => simp
  | access i _ _ he =>
    cases he with
    | store r d _ hm => exact storeCsr_mapRegs (by simpa using mt hm hs) d s
    | _ => simp

/-- The lock of the frame group and of pixel RAM (R131). -/
theorem HostEdge.frame_frozen {s h : State} (e : HostEdge s h) (hb : s.busy = true) :
    h.frameRegs = s.frameRegs ∧ h.pix = s.pix := by
  cases e with
  | quiet => simp
  | access i _ _ he =>
    cases he with
    | store r d _ _ hf =>
      obtain ⟨-, -, -, -, -, -, -, -, hpix, -⟩ := storeCsr_keeps r d s
      exact ⟨storeCsr_frameRegs (by simpa using mt hf (by simp [hb])) d s, hpix⟩
    | pixel _ _ _ hb' => simp [hb] at hb'
    | _ => simp

theorem HostEdge.pix_wf {s h : State} (e : HostEdge s h) (hw : Memory.wf s.pix = true) : Memory.wf h.pix = true := by
  cases e with
  | quiet => exact hw
  | access i _ _ he =>
    cases he with
    | store r d =>
      obtain ⟨-, -, -, -, -, -, -, -, hpix, -⟩ := storeCsr_keeps r d s
      exact hpix ▸ hw
    | pixel k v => exact writePixel_wf k v hw
    | _ => simpa using hw

/-- Only a slot of a frame with CTRL.READBACK = 1 has a duty readback on its list (R96, R98, R105). -/
theorem Inv.readback_of_completes {s : State} (hi : Inv s) (hc : completes s .rdDuty) :
    s.backend = .transmitting ∧ s.frameRegs.ctrl.getLsbD 0 = true := by
  obtain ⟨hidle, hhead, -⟩ := hc
  have hmem : Op.rdDuty ∈ s.seq.ops := List.mem_of_mem_head? hhead
  cases hp : s.seq.phase with
  | idle => exact absurd hp hidle
  | setp => simp [(opsShape_setp hp).1 hi.ops] at hmem
  | pro => simpa [prologueOps] using ((opsShape_pro hp).1 hi.ops).2.subset hmem
  | slot =>
    have hslot : Op.rdDuty ∈ slotOps s := ((opsShape_slot hp).1 hi.ops).subset hmem
    refine ⟨hi.transmittingIff.2 (.inr hp), ?_⟩
    by_contra hrb
    have hrb' : s.frameRegs.readback = false := by simpa [FrameRegs.readback] using hrb
    cases hl : s.mapRegs.lockSup <;> simp [slotOps, hrb', hl] at hslot

end Sys2Proof.Machine
end

section
/-! PROOFS of the statements about the state across one step: the frozen inputs of a frame, the two counters the sequencer
keeps, and pixel RAM's canonical form (R37, R40 to R43). -/

namespace Sys2Proof.Machine

/-- Settles O50: the host's locks close, and the sequencer writes none of these. -/
theorem inputsOfAFrameAreFrozen : Obligations.InputsOfAFrameAreFrozen := by
  intro s t hr hstep
  rcases step_cases hstep with ⟨hrst, -⟩ | ⟨-, h, u, -, he, hu, rfl⟩
  · simp [noReset, hrst] at hr
  · obtain ⟨hframe, hmap, hpix⟩ := hu.inputs
    refine ⟨fun hs => hmap.trans (he.map_frozen hs), fun hb => ?_⟩
    obtain ⟨hframe', hpix'⟩ := he.frame_frozen hb
    exact ⟨hframe.trans hframe', readByte_congr (hpix.trans hpix')⟩

/-- Settles O51: the host never writes the counter, and the sequencer does at a frame's end alone. -/
theorem frameCounterCountsFrameEnds : Obligations.FrameCounterCountsFrameEnds := by
  refine ⟨fun p => rfl, fun s t hstep => ?_⟩
  rcases step_cases hstep with ⟨hrst, rfl⟩ | ⟨hr, h, u, -, he, hu, rfl⟩
  · have hno : ¬ noReset s := by simp [noReset, hrst]
    exact ⟨fun _ => rfl, fun hr => absurd hr hno, fun hr => absurd hr hno⟩
  · have hcnt := hu.frameCnt_eq
    rw [he.counters.1] at hcnt
    refine ⟨fun hrst => by simp [noReset, hrst] at hr, fun _ hend => ?_, fun _ hend => ?_⟩
    · rw [nextCycle_frameCnt, hcnt, if_pos hend, BitVec.toNat_add]
      rfl
    · rw [nextCycle_frameCnt, hcnt, if_neg hend]

/-- Settles O52: RB_DUTY follows the completed readback, which only a slot with CTRL.READBACK = 1 has. -/
theorem rbDutyIsTheLastReadback : Obligations.RbDutyIsTheLastReadback := by
  refine ⟨fun p => rfl, fun s t hi hr hstep => ?_⟩
  rcases step_cases hstep with ⟨hrst, -⟩ | ⟨-, h, u, -, he, hu, rfl⟩
  · simp [noReset, hrst] at hr
  · have hrb := hu.rbDuty_eq
    rw [he.counters.2] at hrb
    have keeps : ¬ completes s .rdDuty → (nextCycle u).rbDuty = s.rbDuty := fun hc => by
      rw [nextCycle_rbDuty, hrb, if_neg hc]
    refine ⟨fun hc => by rw [nextCycle_rbDuty, hrb, if_pos hc], keeps, fun hctrl => keeps fun hc => ?_,
      fun hs => keeps fun hc => ?_⟩
    · exact Bool.false_ne_true (hctrl.symm.trans (hi.readback_of_completes hc).2)
    · exact hs (hi.readback_of_completes hc).1

/-- Settles O54: only a host write of an entry reaches the list, and it keeps the list rising. -/
theorem pixelRamStaysCanonical : Obligations.PixelRamStaysCanonical := by
  intro s t hw hstep
  rcases step_cases hstep with ⟨-, rfl⟩ | ⟨-, h, u, -, he, hu, rfl⟩
  · exact hw
  · obtain ⟨-, -, hpix⟩ := hu.inputs
    rw [nextCycle_pix, hpix]
    exact he.pix_wf hw

end Sys2Proof.Machine
end

section
/-! SUPPORT for the proofs. STATUS and PARAM bit by bit, the answer of a CSR read, and an entry at its power-up draw (R21,
R23, R42, R125). -/

namespace Sys2Proof.Machine

theorem getLsbD_bitAt (b : Bool) {n : Nat} (hn : n < 32) (k : Nat) :
    (bitAt b n).getLsbD k = (b && decide (k = n)) := by
  cases b with
  | false => simp [bitAt]
  | true =>
    have hpos : k < 32 ∧ ¬ k < n ∧ k - n = 0 ↔ k = n := by omega
    rw [bitAt, if_pos rfl, BitVec.getLsbD_shiftLeft, BitVec.getLsbD_one, Bool.true_and, Bool.eq_iff_iff]
    simpa [and_assoc] using hpos

theorem getLsbD_w1cMask (k : Nat) : w1cMask.getLsbD k = decide (k = 8 ∨ (16 ≤ k ∧ k ≤ 25)) := by
  rcases Nat.lt_or_ge k 32 with hk | hk
  · revert k
    decide
  · rw [BitVec.getLsbD_of_ge _ _ hk, eq_comm, decide_eq_false_iff_not]
    omega

theorem getLsbD_backendCode (b : Backend) {k : Nat} (hk : 2 ≤ k) : b.code.getLsbD k = false := by
  have hcode : b.code.toNat < 2 ^ 2 := by cases b <;> decide
  exact Nat.testBit_lt_two_pow (hcode.trans_le (Nat.pow_le_pow_right two_pos hk))

/-- STATUS as its fields at their positions (R23). -/
theorem getLsbD_statusWord (s : State) (k : Nat) :
    (statusWord s).getLsbD k =
      (s.backend.code.getLsbD k || s.busy && decide (k = 2) || s.seq.relPend && decide (k = 3) ||
        s.seq.periodValid && decide (k = 4) || s.flags.getLsbD k && decide (k = 8 ∨ (16 ≤ k ∧ k ≤ 25))) := by
  simp only [statusWord, BitVec.getLsbD_or, BitVec.getLsbD_and, getLsbD_w1cMask, getLsbD_bitAt, Nat.reduceLT]

/-- The two low bits of STATUS are STATE (R24). -/
theorem statusWord_mod_four (s : State) : (statusWord s).toNat % 4 = s.backend.code.toNat % 4 := by
  have hlow : ∀ x : Word, x.toNat % 4 = (x.setWidth 2).toNat := fun x => (BitVec.toNat_setWidth 2 x).symm
  rw [hlow, hlow]
  congr 1
  apply BitVec.eq_of_getLsbD_eq
  intro k hk
  have hk2 : k ≠ 2 := by omega
  have hk3 : k ≠ 3 := by omega
  have hk4 : k ≠ 4 := by omega
  have hkf : ¬ (k = 8 ∨ (16 ≤ k ∧ k ≤ 25)) := by omega
  simp [BitVec.getLsbD_setWidth, getLsbD_statusWord, hk2, hk3, hk4, hkf]

/-- PARAM as a sum of fields and field by field (R21). -/
theorem paramWord_eq (n : Nat) :
    0x01000000#32 ||| BitVec.ofNat 32 (n % 2 ^ 16) = 0x01#8 ++ 0x00#8 ++ BitVec.ofNat 16 n := by
  have hlow : BitVec.ofNat 32 (n % 2 ^ 16) = (BitVec.ofNat 16 n).setWidth 32 := by
    apply BitVec.eq_of_toNat_eq
    simp
  rw [hlow, BitVec.append_def (0x01#8 ++ 0x00#8), BitVec.setWidth'_eq]
  rfl

/-- LAST_ERR below its res0 bits (R27). -/
theorem zero_append_code (c : BitVec 4) : 0#28 ++ c = c.zeroExtend 32 := by
  simp [BitVec.setWidth_eq_append (show 4 ≤ 32 by decide)]

/-- The answer of a read at a CSR's own offset (R125). -/
theorem exec_hostRead_offset (r : Csr) (s : State) :
    exec (.hostRead r.offset) s = .next (acceptRead (readCsr s r) s) := by
  simp [exec, execHostRead, aligned_offset]

/-- Where the bytes of an entry lie (R41). -/
theorem pixAddr_split (i : Nat) {k : Nat} (hk : k < 4) :
    (pixAddr i + k - pixBase) % 4 = k ∧ (pixAddr i + k - pixBase) / 4 = i := by
  simp only [pixAddr]
  omega

theorem powerUpByte_blue (i : Nat) : powerUpByte (pixAddr i) = (Config.pixPowerUp i).extractLsb' 0 8 := by
  obtain ⟨hm, hd⟩ := pixAddr_split i (k := 0) (by decide)
  rw [Nat.add_zero] at hm hd
  unfold powerUpByte
  rw [hm, hd]
  rfl

theorem powerUpByte_green (i : Nat) : powerUpByte (pixAddr i + 1) = (Config.pixPowerUp i).extractLsb' 8 8 := by
  obtain ⟨hm, hd⟩ := pixAddr_split i (k := 1) (by decide)
  unfold powerUpByte
  rw [hm, hd]
  rfl

theorem powerUpByte_red (i : Nat) : powerUpByte (pixAddr i + 2) = (Config.pixPowerUp i).extractLsb' 16 8 := by
  obtain ⟨hm, hd⟩ := pixAddr_split i (k := 2) (by decide)
  unfold powerUpByte
  rw [hm, hd]
  rfl

/-- An entry no host write has set (R42). -/
theorem readPixel_of_pix_nil {s : State} (h : s.pix = []) (i : Nat) : readPixel s i = Config.pixPowerUp i := by
  have byte : ∀ a, readByte s a = powerUpByte a := fun a => by simp [readByte, h, Memory.lookup]
  rw [readPixel, byte, byte, byte, powerUpByte_red, powerUpByte_green, powerUpByte_blue, pixel_of_bytes]

end Sys2Proof.Machine
end

section
/-! PROOFS of the statements about what a read of a CSR answers, and of the reset values (R19 to R40, R46). -/

namespace Sys2Proof.Machine

/-- Settles O20: each position of STATUS is one field's. -/
theorem statusReadsBitByBit : Obligations.StatusReadsBitByBit := by
  intro s
  have bit : ∀ {k : Nat}, 2 ≤ k → (readCsr s .status).getLsbD k =
      (s.busy && decide (k = 2) || s.seq.relPend && decide (k = 3) || s.seq.periodValid && decide (k = 4) ||
        s.flags.getLsbD k && decide (k = 8 ∨ (16 ≤ k ∧ k ≤ 25))) := fun {k} hk => by
    rw [readCsr, getLsbD_statusWord, getLsbD_backendCode _ hk, Bool.false_or]
  refine ⟨?_, ?_, ?_, ?_, fun b hb => ?_, fun b hb => ?_⟩
  · rw [readCsr, statusWord_mod_four]
    cases s.backend <;> rfl
  · rw [bit (by decide)]
    simp [State.busy]
  · rw [bit (by decide)]
    simp
  · rw [bit (by decide)]
    simp
  · rw [bit (by omega)]
    simp [hb, show b ≠ 2 by omega, show b ≠ 3 by omega, show b ≠ 4 by omega]
  · rw [bit (by omega)]
    simp [show b ≠ 2 by omega, show b ≠ 3 by omega, show b ≠ 4 by omega,
      show ¬ (b = 8 ∨ (16 ≤ b ∧ b ≤ 25)) by omega]

/-- Settles O19: the rows are the CSRs but STATUS, each with its offset and the value a read of it answers. -/
theorem csrsReadAsTheTableSays : Obligations.CsrsReadAsTheTableSays := by
  intro s off v hrow
  have hcsr : (off, v) ∈ (Csr.all.erase .status).map fun r => (r.offset, readCsr s r) := by
    rw [← paramWord_eq, zero_append_code] at hrow
    exact hrow
  obtain ⟨r, -, hr⟩ := List.mem_map.1 hcsr
  obtain ⟨rfl, rfl⟩ := Prod.mk.inj hr
  exact exec_hostRead_offset r s

/-- Settles O5: the reset state is written with these values, and no byte of pixel RAM is listed in it. -/
theorem resetStateHoldsTheResetValues : Obligations.ResetStateHoldsTheResetValues := by
  intro p
  refine ⟨fun r hid hparam => ?_, rfl, paramWord_eq p.maxLeds, rfl, by simp [State.irq, State.resetWith], rfl,
     readPixel_of_pix_nil rfl⟩
  cases r with
  | id => exact absurd rfl hid
  | param => exact absurd rfl hparam
  | ctrl | irqEn | pwmOffs | pwmFeat => exact BitVec.zero_and
  | status => simp [readCsr, statusWord, State.busy, State.resetWith, Seq.zeros, Backend.code, bitAt]
  | _ => rfl

end Sys2Proof.Machine
end

section
/-! SUPPORT for the proofs. An accepted write of a pixel entry, the words of a valid map, and what the downstream port
drives (R41, R53, R54, R113, R132). -/

namespace Sys2Proof.Machine

/-- A word-aligned offset of the pixel window is its entry's (R41, R47). -/
theorem pixAddr_of_offset {off : Offset} (ha : off.toNat % 4 = 0) (hlo : 0x1000 ≤ off.toNat) :
    pixAddr ((off.toNat - 0x1000) / 4) = off.toNat := by
  simp only [pixAddr, pixBase]
  omega

/-- While not BUSY a write in the pixel window is accepted and stores the low 24 bits (R131, R132). -/
theorem exec_hostWrite_pixel {s : State} {off : Offset} (data : Word) (ha : off.toNat % 4 = 0)
    (hlo : 0x1000 ≤ off.toNat) (hhi : off.toNat < 0x1000 + 4 * s.params.maxLeds) (hb : s.busy = false) :
    exec (.hostWrite off data) s =
      .next (acceptWrite (writePixel ((off.toNat - 0x1000) / 4) (data.extractLsb' 0 24) s)) := by
  simp [exec, execHostWrite, (aligned_iff off).2 ha, targetOf_pixel hlo hhi, writePix, hb]

/-- No CSR is read from pixel RAM. -/
theorem readCsr_writePixel (i : Nat) (v : Pixel) (s : State) (r : Csr) :
    readCsr (acceptWrite (writePixel i v s)) r = readCsr s r := by
  cases r <;> rfl

/-- An offset that is aligned and inside the region (R113). -/
theorem offOk_iff {m : MapRegs} {off : Nat} :
    m.offOk off = true ↔ off % 4 = 0 ∧ off + 4 ≤ m.size.toNat := by
  simp [MapRegs.offOk]

/-- `map_ok`, clause by clause (R113). -/
theorem mapOk_iff {m : MapRegs} :
    m.ok = true ↔
      (m.size.toNat ≠ 0 ∧ m.base.toNat % 4 = 0 ∧ m.base.toNat + m.size.toNat ≤ 2 ^ 32) ∧
      (m.offOk m.periodOff = true ∧ m.offOk m.dutyOff = true ∧ m.offOk m.ctrlOff = true) ∧
      (m.periodOff ≠ m.dutyOff ∧ m.periodOff ≠ m.ctrlOff ∧ m.dutyOff ≠ m.ctrlOff) := by
  simp only [MapRegs.ok, Bool.and_eq_true, decide_eq_true_iff, and_assoc]

/-- In a region that ends by 2^32 the word at an offset does not wrap (R53). -/
theorem toNat_base_add {m : MapRegs} (hm : m.base.toNat + m.size.toNat ≤ 2 ^ 32) {off : Nat}
    (ho : m.offOk off = true) : (m.base + BitVec.ofNat 32 off).toNat = m.base.toNat + off := by
  obtain ⟨-, hfits⟩ := offOk_iff.1 ho
  have hoff : off % 2 ^ 32 = off := Nat.mod_eq_of_lt (by omega)
  rw [BitVec.toNat_add, BitVec.toNat_ofNat, hoff, Nat.mod_eq_of_lt (by omega)]

/-- The three words of a valid map as numbers (R53). -/
theorem toNat_mapWords {m : MapRegs} (hm : m.ok = true) :
    m.aPeriod.toNat = m.base.toNat + m.periodOff ∧ m.aDuty.toNat = m.base.toNat + m.dutyOff ∧
      m.aCtrl.toNat = m.base.toNat + m.ctrlOff := by
  obtain ⟨⟨-, -, hend⟩, ⟨hp, hd, hc⟩, -⟩ := mapOk_iff.1 hm
  exact ⟨toNat_base_add hend hp, toNat_base_add hend hd, toNat_base_add hend hc⟩

/-- What is driven is the transaction of the operation at the head of a phase's list (R54, R94). -/
theorem dsPort_eq_some {s : State} {q : DsReq} (h : dsPort s = some q) :
    s.seq.phase ≠ .idle ∧ ∃ op, s.seq.ops.head? = some op ∧ q = opRequest s op := by
  unfold dsPort at h
  split at h
  · cases h
  · split at h
    · cases h
    · cases h
    · next op _ hops hidle =>
      cases h
      exact ⟨hidle, op, by rw [hops]; rfl, rfl⟩

/-- The map is valid in every phase that drives the port (R53, R114). -/
theorem Inv.mapOk_of_phase {s : State} (hi : Inv s) (hp : s.seq.phase ≠ .idle) : s.mapRegs.ok = true :=
  hi.mapValid fun hu => hp (hi.idle_of_uninitialized hu)

end Sys2Proof.Machine
end

section
/-! PROOFS of the statements about memory: pixel RAM, and the words of the downstream space (R41, R49, R53). -/

namespace Sys2Proof.Machine

/-- Settles O22: the write stores the entry's three bytes, and `readByte_writePixel` says how every byte then reads. -/
theorem pixelWriteChangesItsEntryOnly : Obligations.PixelWriteChangesItsEntryOnly := by
  intro s off data ha hlo hhi hb
  have byte : ∀ a, readByte (acceptWrite (writePixel ((off.toNat - 0x1000) / 4) (data.extractLsb' 0 24) s)) a =
      if a = off.toNat then data.extractLsb' 0 8
      else if a = off.toNat + 1 then data.extractLsb' 8 8
      else if a = off.toNat + 2 then data.extractLsb' 16 8
      else readByte s a := fun a => by
    rw [readByte_congr (acceptWrite_pix _), readByte_writePixel, pixAddr_of_offset ha hlo]
    simp (disch := decide) only [BitVec.extractLsb'_extractLsb'_of_le]
  refine ⟨_, exec_hostWrite_pixel data ha hlo hhi hb, ?_, ?_, ?_, fun a hout => ?_, readCsr_writePixel _ _ s,
    rfl, rfl, rfl, rfl, rfl⟩
  · simp [byte]
  · simp [byte]
  · simp [byte]
  · rw [byte, if_neg (by omega), if_neg (by omega), if_neg (by omega)]

/-- Settles O38: `map_ok` places the three words, every operation's transaction is at one of them, and a phase that
drives the port has a valid map. -/
theorem downstreamAccessesStayInTheRegion : Obligations.DownstreamAccessesStayInTheRegion := by
  refine ⟨fun m hm => ?_, fun s q hi hq => ?_⟩
  · obtain ⟨hperiod, hduty, hctrl⟩ := toNat_mapWords hm
    obtain ⟨⟨-, hbase, -⟩, ⟨hp, hd, hc⟩, hpd, hpc, hdc⟩ := mapOk_iff.1 hm
    rw [offOk_iff] at hp hd hc
    refine ⟨⟨by omega, by omega, by omega⟩, ⟨?_, ?_, ?_⟩, ?_⟩
    · exact fun h => hpd (by have := congrArg BitVec.toNat h; omega)
    · exact fun h => hpc (by have := congrArg BitVec.toNat h; omega)
    · exact fun h => hdc (by have := congrArg BitVec.toNat h; omega)
    · rintro a (rfl | rfl | rfl)
      · omega
      · omega
      · omega
  · obtain ⟨hphase, op, -, rfl⟩ := dsPort_eq_some hq
    refine ⟨hi.mapOk_of_phase hphase, ?_⟩
    cases op <;> simp [opRequest]

end Sys2Proof.Machine
end

section
/-! SUPPORT for the proofs. The device's pins: the host's edge and what the sequencer writes are the same whatever the
device drives, and of its pins the sequencer reads `d_ack` and `d_rdata` alone (R54, R55, R107). -/

namespace Sys2Proof.Machine

/-- `s` with the device's pins of this cycle and the following ones replaced. -/
def withDsIn (l : List DsIn) (s : State) : State := { s with dsIn := l }

@[simp] theorem withDsIn_params (l : List DsIn) (s : State) : (withDsIn l s).params = s.params := rfl
@[simp] theorem withDsIn_backend (l : List DsIn) (s : State) : (withDsIn l s).backend = s.backend := rfl
@[simp] theorem withDsIn_frameRegs (l : List DsIn) (s : State) : (withDsIn l s).frameRegs = s.frameRegs := rfl
@[simp] theorem withDsIn_seq (l : List DsIn) (s : State) : (withDsIn l s).seq = s.seq := rfl
@[simp] theorem withDsIn_busy (l : List DsIn) (s : State) : (withDsIn l s).busy = s.busy := rfl

/-- An outcome with a function applied to its next state. -/
def mapNext (f : State → State) : Out → Out
  | .next s => .next (f s)
  | .fault r => .fault r
  | .refused r => .refused r

@[simp] theorem mapNext_next (f : State → State) (s : State) : mapNext f (.next s) = .next (f s) := rfl

/-! The host's edge. -/

theorem whenIdleIn_withDsIn (b : Backend) (l : List DsIn) (s t : State) :
    whenIdleIn b (withDsIn l s) (withDsIn l t) = withDsIn l (whenIdleIn b s t) := by
  simp only [whenIdleIn, withDsIn_busy, withDsIn_backend, apply_ite (withDsIn l)]
  rfl

theorem releaseAction_withDsIn (l : List DsIn) (s h : State) :
    releaseAction (withDsIn l s) (withDsIn l h) = withDsIn l (releaseAction s h) := by
  simp only [releaseAction, withDsIn_seq, withDsIn_params, withDsIn_frameRegs, apply_ite (withDsIn l)]
  rfl

theorem storeCsr_withDsIn (r : Csr) (data : Word) (l : List DsIn) (s : State) :
    storeCsr r data (withDsIn l s) = withDsIn l (storeCsr r data s) := by
  cases r <;> rfl

theorem writeReg_withDsIn (r : Csr) (data : Word) (l : List DsIn) (s : State) :
    writeReg r data (withDsIn l s) = withDsIn l (writeReg r data s) := by
  simp only [writeReg, withDsIn_busy, withDsIn_backend, storeCsr_withDsIn, apply_ite (withDsIn l)]
  rfl

theorem writePix_withDsIn (i : Nat) (data : Word) (l : List DsIn) (s : State) :
    writePix i data (withDsIn l s) = withDsIn l (writePix i data s) := by
  simp only [writePix, withDsIn_busy, apply_ite (withDsIn l)]
  rfl

theorem execOpen_withDsIn (l : List DsIn) (s : State) : execOpen (withDsIn l s) = mapNext (withDsIn l) (execOpen s) := by
  rw [execOpen, execOpen, mapNext_next, ← whenIdleIn_withDsIn, apply_ite (withDsIn l)]
  rfl

theorem execSetPeriod_withDsIn (l : List DsIn) (s : State) :
    execSetPeriod (withDsIn l s) = mapNext (withDsIn l) (execSetPeriod s) := by
  rw [execSetPeriod, execSetPeriod, mapNext_next, ← whenIdleIn_withDsIn]
  rfl

theorem execTransmit_withDsIn (l : List DsIn) (s : State) :
    execTransmit (withDsIn l s) = mapNext (withDsIn l) (execTransmit s) := by
  rw [execTransmit, execTransmit, mapNext_next, ← whenIdleIn_withDsIn, apply_ite (withDsIn l), apply_ite (withDsIn l)]
  rfl

theorem execClose_withDsIn (l : List DsIn) (s : State) :
    execClose (withDsIn l s) = mapNext (withDsIn l) (execClose s) := by
  simp only [execClose, mapNext_next, withDsIn_busy, withDsIn_backend, apply_ite (withDsIn l)]
  rfl

theorem execRelease_withDsIn (l : List DsIn) (s : State) :
    execRelease (withDsIn l s) = mapNext (withDsIn l) (execRelease s) := by
  simp only [execRelease, mapNext_next, withDsIn_busy, withDsIn_backend, withDsIn_seq]
  cases s.backend with
  | uninitialized | disabled => rfl
  | enabled | transmitting =>
    simp only [apply_ite (withDsIn l), releaseAction_withDsIn]
    rfl

theorem exec_cmd_withDsIn {c : Instr} (hc : c.format = .cmd) (l : List DsIn) (s : State) :
    exec c (withDsIn l s) = mapNext (withDsIn l) (exec c s) := by
  cases c with
  | cmdNop | cmdReserved => rfl
  | cmdOpen => exact execOpen_withDsIn l s
  | cmdSetPeriod => exact execSetPeriod_withDsIn l s
  | cmdTransmit => exact execTransmit_withDsIn l s
  | cmdClose => exact execClose_withDsIn l s
  | cmdRelease => exact execRelease_withDsIn l s
  | _ => simp [Instr.format] at hc

theorem writeCsr_withDsIn (r : Csr) (data : Word) (l : List DsIn) (s : State) :
    writeCsr r data (withDsIn l s) = mapNext (withDsIn l) (writeCsr r data s) := by
  unfold writeCsr
  split
  · rfl
  · split
    · rw [cmdWrite_eq_exec, cmdWrite_eq_exec, exec_cmd_withDsIn (decodeCmd_format data)]
    · rfl
    · rw [writeReg_withDsIn, mapNext_next]

/-- An access, command or symbol reads no pin of the device and passes the pins on as they were (R111 to R132). -/
theorem exec_withDsIn (i : Instr) (l : List DsIn) (s : State) :
    exec i (withDsIn l s) = mapNext (withDsIn l) (exec i s) := by
  cases i with
  | symZero | symOne | symReset | symReserved => rfl
  | hostRead off =>
    simp only [exec, execHostRead, withDsIn_params, mapNext_next]
    split
    · rfl
    · split <;> rfl
  | hostWrite off data =>
    simp only [exec, execHostWrite, withDsIn_params]
    split
    · rfl
    · split
      · exact writeCsr_withDsIn _ data l s
      · rw [writePix_withDsIn, mapNext_next]
      · rfl
  | _ => exact exec_cmd_withDsIn rfl l s

/-- The host's edge meets the device's pins nowhere (R48). -/
theorem hostEdge_withDsIn (l : List DsIn) (s : State) :
    hostEdge (withDsIn l s) = mapNext (withDsIn l) (hostEdge s) := by
  have hf : fetchAccess (withDsIn l s) = fetchAccess s := rfl
  rw [hostEdge, hostEdge, hf]
  split
  · exact exec_withDsIn _ l s
  · rfl

/-! The sequencer's edge. -/

theorem driveOps_onto_withDsIn (l : List DsIn) (s h : State) :
    driveOps s (withDsIn l h) = withDsIn l (driveOps s h) := by
  rw [driveOps_eq, driveOps_eq]
  rfl

theorem slotClosed_onto_withDsIn (l : List DsIn) (s h : State) :
    slotClosed s (withDsIn l h) = withDsIn l (slotClosed s h) := by
  rw [slotClosed_eq, slotClosed_eq, driveOps_onto_withDsIn]
  rfl

theorem startSlot_onto_withDsIn (l : List DsIn) (k : Nat) (s h : State) :
    startSlot k s (withDsIn l h) = mapNext (withDsIn l) (startSlot k s h) := by
  unfold startSlot
  split <;> rfl

/-- What the sequencer does does not depend on the pins that stand in the edge it writes on (R107). -/
theorem seqEdge_onto_withDsIn (l : List DsIn) (s h : State) :
    seqEdge s (withDsIn l h) = mapNext (withDsIn l) (seqEdge s h) := by
  unfold seqEdge
  split
  · simp only [idleEdge, mapNext_next, apply_ite (withDsIn l)]
    rw [← releaseAction_withDsIn]
    rfl
  · simp only [setpEdge, mapNext_next, driveOps_onto_withDsIn, apply_ite (withDsIn l)]
    rfl
  · simp only [proEdge, driveOps_onto_withDsIn, startSlot_onto_withDsIn, apply_ite (mapNext (withDsIn l))]
    rfl
  · simp only [slotEdge_eq, driveOps_onto_withDsIn, slotClosed_onto_withDsIn, startSlot_onto_withDsIn,
      apply_ite (mapNext (withDsIn l))]
    rfl

/-! Of the device's pins the sequencer looks at `d_ack` and `d_rdata` alone. -/

section
variable (d : DsIn) (e : Bool) (rest : List DsIn) (s h : State)

theorem opsLeft_dsErr : opsLeft (withDsIn ({ d with err := e } :: rest) s) = opsLeft (withDsIn (d :: rest) s) := rfl

/-- A transaction completes with `d_ack`, and takes `d_rdata` alone (R93, R94, R102). -/
theorem driveOps_dsErr :
    driveOps (withDsIn ({ d with err := e } :: rest) s) h = driveOps (withDsIn (d :: rest) s) h := by
  rw [driveOps_eq, driveOps_eq]
  rfl

theorem slotClosed_dsErr :
    slotClosed (withDsIn ({ d with err := e } :: rest) s) h = slotClosed (withDsIn (d :: rest) s) h := by
  rw [slotClosed_eq, slotClosed_eq, driveOps_dsErr]
  rfl

/-- No phase of the sequencer reads `d_err` (R55, R107). -/
theorem seqEdge_dsErr :
    seqEdge (withDsIn ({ d with err := e } :: rest) s) h = seqEdge (withDsIn (d :: rest) s) h := by
  simp only [seqEdge, withDsIn_seq]
  split
  · rfl
  · rw [setpEdge, setpEdge, opsLeft_dsErr, driveOps_dsErr]
  · rw [proEdge, proEdge, opsLeft_dsErr, driveOps_dsErr]
    rfl
  · rw [slotEdge_eq, slotEdge_eq, opsLeft_dsErr, driveOps_dsErr, slotClosed_dsErr]
    rfl

end

/-- The device's pins of a cycle reach its step through the sequencer's edge alone. -/
theorem step_withDsIn_cons {s h : State} (hr : noReset s) (hh : hostEdge s = .next h) (d : DsIn) (rest : List DsIn) :
    step (withDsIn (d :: rest) s) =
      mapNext (fun u => withDsIn rest (nextCycle u)) (seqEdge (withDsIn (d :: rest) s) h) := by
  have hr' : noReset (withDsIn (d :: rest) s) := hr
  simp only [step, hr', hostEdge_withDsIn, hh, mapNext_next, seqEdge_onto_withDsIn, Bool.false_eq_true, if_false]
  cases seqEdge (withDsIn (d :: rest) s) h <;> rfl

end Sys2Proof.Machine
end

section
/-! PROOFS of the statements about the device's error input (R55). -/

namespace Sys2Proof.Machine

/-- Settles O53: a reset edge reads no pin of the device, and any other step only what the sequencer reads of them, which
is not `d_err`. -/
theorem deviceErrorInputIsIgnored : Obligations.DeviceErrorInputIsIgnored := by
  intro s d e rest
  change step (withDsIn ({ d with err := e } :: rest) s) = step (withDsIn (d :: rest) s)
  cases hr : (hostNow s).rst with
  | true =>
    have hrst : ∀ l, (hostNow (withDsIn l s)).rst = true := fun _ => hr
    simp only [step, hrst, if_true]
    rfl
  | false =>
    obtain ⟨h, hh⟩ := hostEdge_completes s
    rw [step_withDsIn_cons hr hh, step_withDsIn_cons hr hh, seqEdge_dsErr]

end Sys2Proof.Machine
end

section
/-! PROOFS. The facts about the decoder of CMD words: a word can be read back from its instruction, and the reserved words
are those from 6 on (R70, R74). -/

namespace Sys2Proof

/-- The encoder finds the word an instruction was decoded from, reserved words too (R70). -/
theorem encode_decodeCmd (w : Word) : encode (decodeCmd w) = .cmd w :=
  Machine.decodeCmd_cases w (fun i => encode i = .cmd w) (fun h => h ▸ rfl) (fun h => h ▸ rfl) (fun h => h ▸ rfl)
    (fun h => h ▸ rfl) (fun h => h ▸ rfl) (fun h => h ▸ rfl) rfl

theorem decodeCmd_injective : Function.Injective decodeCmd := by
  intro v w h
  have hc : Code.cmd v = .cmd w := by rw [← encode_decodeCmd, ← encode_decodeCmd, h]
  exact Code.cmd.inj hc

/-- A CMD word is one of the six opcodes or lies above them (R70). -/
theorem opcode_or_six_le (w : Word) :
    w = 0#32 ∨ w = 1#32 ∨ w = 2#32 ∨ w = 3#32 ∨ w = 4#32 ∨ w = 5#32 ∨ 6 ≤ w.toNat := by
  simp only [← BitVec.toNat_inj, BitVec.toNat_ofNat]
  omega

theorem decodeCmd_of_six_le {w : Word} (h : 6 ≤ w.toNat) : decodeCmd w = .cmdReserved w := by
  have hne (k : Word) (hk : k.toNat < 6) : w ≠ k := by rintro rfl; omega
  simp [decodeCmd, hne]

theorem decodeCmd_eq_cmdReserved_iff (w : Word) : decodeCmd w = .cmdReserved w ↔ 6 ≤ w.toNat := by
  obtain rfl | rfl | rfl | rfl | rfl | rfl | h := opcode_or_six_le w
  case inr.inr.inr.inr.inr.inr => exact iff_of_true (decodeCmd_of_six_le h) h
  all_goals decide

end Sys2Proof
end

section
/-! PROOFS of the statements about the encoding (R69 to R74). -/

namespace Sys2Proof.Machine

/-- Settles O1: on words without a variable the decoder computes each of the instructions. -/
theorem writtenOutWordsDecode : Obligations.WrittenOutWordsDecode := by
  unfold Obligations.WrittenOutWordsDecode
  and_intros <;> rfl

/-- Settles O4: each opcode's word is the only one that selects its command, and the words of 6 and more are reserved. -/
theorem cmdWordSelectsExactly : Obligations.CmdWordSelectsExactly := by
  intro w
  have only {k : Word} {i : Instr} (hk : decodeCmd k = i) : decodeCmd w = i ↔ w = k := decodeCmd_injective.eq_iff' hk
  have hres : 6 ≤ w.toNat ↔ 6 ≤ w.toNat % 16 ∨ w.toNat / 16 ≠ 0 := by omega
  exact ⟨only rfl, only rfl, only rfl, only rfl, only rfl, only rfl, (decodeCmd_eq_cmdReserved_iff w).trans hres⟩

/-- Settles O28: the reserved symbol's meaning is the fault, and it looks at no state (R74). -/
theorem reservedSymbolIsAFault : Obligations.ReservedSymbolIsAFault := by
  intro s
  rw [exec, execSymReserved]

end Sys2Proof.Machine
end

section
/-! PROOFS. The facts about the Color Model: where the GRB word holds each channel, the encoder as three bytes written
out most significant bit first, and the decoder that reads one such byte back (R78 to R80). -/

namespace Sys2Proof.Machine

theorem toNat_append_byte {n : Nat} (x : BitVec n) (y : Byte) : (x ++ y).toNat = x.toNat * 2 ^ 8 + y.toNat := by
  rw [BitVec.toNat_append, ← Nat.shiftLeft_add_eq_or_of_lt y.isLt, Nat.shiftLeft_eq]

theorem toNat_grb (p : Pixel) :
    (grb p).toNat = (green p).toNat * 2 ^ 16 + (red p).toNat * 2 ^ 8 + (blue p).toNat := by
  rw [grb, toNat_append_byte, toNat_append_byte]
  omega

theorem toNat_red (p : Pixel) : (red p).toNat = p.toNat / 65536 := by
  rw [red, BitVec.extractLsb'_toNat, Nat.shiftRight_eq_div_pow]
  omega

theorem toNat_green (p : Pixel) : (green p).toNat = p.toNat / 256 % 256 := by
  rw [green, BitVec.extractLsb'_toNat, Nat.shiftRight_eq_div_pow]

theorem toNat_blue (p : Pixel) : (blue p).toNat = p.toNat % 256 := by
  rw [blue, BitVec.extractLsb'_toNat, Nat.shiftRight_zero]

/-- `getLsbD` of the GRB word by channel: blue lowest, red above it, green on top (R78). -/
theorem getLsbD_grb (p : Pixel) (i : Nat) :
    (grb p).getLsbD i =
      if i < 8 then (blue p).getLsbD i else if i < 16 then (red p).getLsbD (i - 8) else (green p).getLsbD (i - 16) := by
  have hi : i - 8 < 8 ↔ i < 16 := by omega
  simp only [grb, BitVec.getLsbD_append, hi, Nat.sub_sub]

@[simp] theorem encodePixel_length (p : Pixel) : (encodePixel p).length = 24 := by simp [encodePixel]

theorem encodePixel_getElem? (p : Pixel) {j : Nat} (hj : j < 24) : (encodePixel p)[j]? = some (encodeBit p j) := by
  simp [encodePixel, hj]

theorem symbolVal_bitSymbol (b : Bool) : symbolVal (bitSymbol b) = b.toNat := by cases b <;> rfl

/-- The symbol of bit `7 - j` of a byte, as the serializer writes it at position `j` of that byte's eight symbols. -/
def byteBit (b : Byte) (j : Nat) : Symbol := bitSymbol (b.getLsbD (7 - j))

/-- The eight symbols of a byte, most significant bit first. -/
def byteSymbols (b : Byte) : List Symbol := (List.range 8).map (byteBit b)

@[simp] theorem byteSymbols_length (b : Byte) : (byteSymbols b).length = 8 := by simp [byteSymbols]

theorem encodeBit_green (p : Pixel) {j : Nat} (hj : j < 8) : encodeBit p j = byteBit (green p) j := by
  rw [encodeBit, byteBit, getLsbD_grb, if_neg (by omega), if_neg (by omega), show 23 - j - 16 = 7 - j by omega]

theorem encodeBit_red (p : Pixel) {j : Nat} (hj : j < 8) : encodeBit p (8 + j) = byteBit (red p) j := by
  rw [encodeBit, byteBit, getLsbD_grb, if_neg (by omega), if_pos (by omega), show 23 - (8 + j) - 8 = 7 - j by omega]

theorem encodeBit_blue (p : Pixel) {j : Nat} (hj : j < 8) : encodeBit p (16 + j) = byteBit (blue p) j := by
  rw [encodeBit, byteBit, getLsbD_grb, if_pos (by omega), show 23 - (16 + j) = 7 - j by omega]

/-- The serializer writes the three channels one after the other, green first (R79). -/
theorem encodePixel_eq_channels (p : Pixel) :
    encodePixel p = byteSymbols (green p) ++ byteSymbols (red p) ++ byteSymbols (blue p) := by
  have hrange : List.range 24 = List.range 8 ++ (List.range 8).map (8 + ·) ++ (List.range 8).map (16 + ·) := rfl
  simp only [encodePixel, hrange, List.map_append, List.map_map, byteSymbols]
  congr 1
  · congr 1
    · exact List.map_congr_left fun j hj => encodeBit_green p (List.mem_range.mp hj)
    · exact List.map_congr_left fun j hj => encodeBit_red p (List.mem_range.mp hj)
  · exact List.map_congr_left fun j hj => encodeBit_blue p (List.mem_range.mp hj)

/-- After `k` symbols the decoder's sum of R80 holds the byte's upper `k` bits. -/
theorem foldl_byteBit (b : Byte) {k : Nat} (hk : k ≤ 8) :
    ((List.range k).map (byteBit b)).foldl (fun n y => 2 * n + symbolVal y) 0 = b.toNat / 2 ^ (8 - k) := by
  induction k with
  | zero => exact (Nat.div_eq_of_lt b.isLt).symm
  | succ k ih =>
    have hbit : symbolVal (byteBit b k) = b.toNat / 2 ^ (7 - k) % 2 := by
      rw [byteBit, symbolVal_bitSymbol, ← BitVec.testBit_toNat, Nat.toNat_testBit]
    have hhalf : b.toNat / 2 ^ (8 - k) = b.toNat / 2 ^ (7 - k) / 2 := by
      rw [Nat.div_div_eq_div_mul, ← Nat.pow_succ, show 8 - k = 7 - k + 1 by omega]
    rw [List.range_succ, List.map_append, List.foldl_append, ih (by omega), List.map_singleton, List.foldl_cons,
      List.foldl_nil, hbit, hhalf, Nat.div_add_mod, show 8 - (k + 1) = 7 - k by omega]

theorem byteOfSymbols_byteSymbols (b : Byte) : byteOfSymbols (byteSymbols b) = b := by
  rw [byteOfSymbols, byteSymbols, foldl_byteBit b (le_refl 8), Nat.sub_self, Nat.pow_zero, Nat.div_one,
    BitVec.ofNat_toNat, BitVec.setWidth_eq]

theorem decodePixel_encodePixel (p : Pixel) : decodePixel (encodePixel p) = p := by
  have hgreen : (encodePixel p).take 8 = byteSymbols (green p) := by simp [encodePixel_eq_channels]
  have hred : ((encodePixel p).drop 8).take 8 = byteSymbols (red p) := by simp [encodePixel_eq_channels]
  have hblue : ((encodePixel p).drop 16).take 8 = byteSymbols (blue p) := by
    rw [encodePixel_eq_channels, List.drop_left' (by simp), List.take_of_length_le (by simp)]
  rw [decodePixel, hgreen, hred, hblue]
  simp only [byteOfSymbols_byteSymbols]
  exact pixel_of_bytes p

theorem encodePixel_injective : Function.Injective encodePixel :=
  Function.LeftInverse.injective decodePixel_encodePixel

end Sys2Proof.Machine
end

section
/-! PROOFS of the statements about the Color Model (R78 to R80). -/

namespace Sys2Proof.Machine

/-- Settles O29: the reorder as a number is its channels' numbers put together, and a symbol is the bit its position
selects. -/
theorem reorderThenSerializeMsbFirst : Obligations.ReorderThenSerializeMsbFirst := by
  intro p
  refine ⟨?_, encodePixel_length p, fun j hj => ?_⟩
  · rw [toNat_grb, toNat_green, toNat_red, toNat_blue]
  · rw [encodePixel_getElem? p hj, encodeBit, bitSymbol]

/-- Settles O30: decoding undoes encoding, so the encoder is injective. -/
theorem pixelRoundTrip : Obligations.PixelRoundTrip :=
  ⟨fun p => ⟨encodePixel_length p, decodePixel_encodePixel p⟩, fun _ _ h => encodePixel_injective h⟩

end Sys2Proof.Machine
end

section
/-! SUPPORT for the proofs. The Frame Encoder: the reset-gap inserter's output position by position, its length and its
last symbol, and the closed form as the same lookup in the bit sequence (R82 to R86). -/

namespace Sys2Proof.Machine

/-! The bit sequence (R82). -/

theorem frameBits_succ (px : Nat → Pixel) (leds : Nat) :
    frameBits px (leds + 1) = frameBits px leds ++ encodePixel (px leds) := by
  simp [frameBits, List.range_succ]

@[simp] theorem frameBits_length (px : Nat → Pixel) (leds : Nat) : (frameBits px leds).length = 24 * leds := by
  induction leds with
  | zero => rfl
  | succ leds ih => rw [frameBits_succ, List.length_append, ih, encodePixel_length, Nat.mul_succ]

/-- Bit `j` is bit `j % 24` of entry `j / 24`. -/
theorem frameBits_getElem? (px : Nat → Pixel) (leds j : Nat) :
    (frameBits px leds)[j]? = if j < 24 * leds then some (encodeBit (px (j / 24)) (j % 24)) else none := by
  induction leds with
  | zero => rfl
  | succ leds ih =>
    rw [frameBits_succ]
    by_cases hlow : j < 24 * leds
    · rw [List.getElem?_append_left (by simpa using hlow), ih, if_pos hlow, if_pos (by omega)]
    · rw [List.getElem?_append_right (by simpa using hlow), frameBits_length]
      by_cases hhigh : j < 24 * (leds + 1)
      · rw [if_pos hhigh, encodePixel_getElem? _ (by omega), show j / 24 = leds by omega,
          show j % 24 = j - 24 * leds by omega]
      · rw [if_neg hhigh, List.getElem?_eq_none (by rw [encodePixel_length]; omega)]

theorem frameBits_congr {px px' : Nat → Pixel} {leds : Nat} (h : ∀ i, i < leds → px' i = px i) :
    frameBits px' leds = frameBits px leds :=
  List.flatMap_congr fun i hi => by rw [h i (List.mem_range.mp hi)]

/-- A frame of black pixels is ZERO in every position. -/
theorem frameBits_black (leds : Nat) : frameBits (fun _ => 0#24) leds = List.replicate (24 * leds) .zero := by
  have hblack : encodePixel 0#24 = List.replicate 24 .zero := by decide
  induction leds with
  | zero => rfl
  | succ leds ih => rw [frameBits_succ, ih, hblack, List.replicate_append_replicate, Nat.mul_succ]

/-! The count of windows (R84). -/

theorem ceilDiv_zero {w : Nat} (hw : 1 ≤ w) : ceilDiv 0 w = 0 := Nat.div_eq_of_lt (by omega)

theorem ceilDiv_add_self (a : Nat) {w : Nat} (hw : 1 ≤ w) : ceilDiv (w + a) w = ceilDiv a w + 1 := by
  rw [ceilDiv, ceilDiv, show w + a + w - 1 = a + w - 1 + w by omega, Nat.add_div_right _ hw]

theorem one_le_ceilDiv {a w : Nat} (ha : 1 ≤ a) (hw : 1 ≤ w) : 1 ≤ ceilDiv a w :=
  Nat.div_pos (by omega) hw

theorem ceilDiv_of_le {a w : Nat} (ha : 1 ≤ a) (hw : a ≤ w) : ceilDiv a w = 1 :=
  Nat.div_eq_of_lt_le (by omega) (by omega)

/-! The inserter (R83). -/

/-- Every window opened, the one of count `cnt` included, costs one RESET. -/
theorem insertResets_length {w cnt : Nat} (hc : cnt < w) (bits : List Symbol) :
    (insertResets w cnt bits).length = bits.length + ceilDiv (cnt + bits.length) w := by
  induction bits generalizing cnt with
  | nil =>
    rcases Nat.eq_zero_or_pos cnt with rfl | hpos
    · simp [insertResets, ceilDiv_zero hc]
    · simp [insertResets, hpos.ne', ceilDiv_of_le hpos hc.le]
  | cons b bits ih =>
    rw [insertResets, List.length_cons]
    split
    next hfull =>
      rw [List.length_cons, List.length_cons, ih (by omega), show cnt + (bits.length + 1) = w + bits.length by omega,
        ceilDiv_add_self _ (by omega), Nat.zero_add]
      omega
    next hopen =>
      rw [List.length_cons, ih (by omega), Nat.add_right_comm cnt 1, ← Nat.add_assoc]
      omega

/-- A window that holds a bit is closed by a RESET. -/
theorem insertResets_getLast? (w cnt : Nat) (bits : List Symbol) (h : cnt ≠ 0 ∨ bits ≠ []) :
    (insertResets w cnt bits).getLast? = some .reset := by
  induction bits generalizing cnt with
  | nil => simp [insertResets, h.resolve_right (· rfl)]
  | cons b bits ih =>
    rw [insertResets]
    split
    next hfull =>
      by_cases hbits : bits = []
      · simp [hbits, insertResets]
      · simp [List.getLast?_cons, ih 0 (.inr hbits)]
    next hopen => simp [List.getLast?_cons, ih (cnt + 1) (.inl cnt.succ_ne_zero)]

/-- What the inserter has at position `k` when it goes on with the bits `bits` in a window of count `cnt`: every
`w + 1`-th symbol of the frame is a RESET, the others are the bits in order. -/
def insertedSymbol (w cnt : Nat) (bits : List Symbol) (k : Nat) : Symbol :=
  if (cnt + k) % (w + 1) = w then .reset else bits[k - (cnt + k) / (w + 1)]?.getD .reset

/-- No more windows are closed than symbols put out. -/
theorem closedWindows_le {w cnt : Nat} (hc : cnt < w) (k : Nat) : (cnt + k) / (w + 1) ≤ k := by
  have hk : k ≤ k * w := Nat.le_mul_of_pos_right k (by omega)
  refine Nat.lt_succ_iff.mp ((Nat.div_lt_iff_lt_mul w.succ_pos).mpr ?_)
  rw [Nat.succ_mul, Nat.mul_succ]
  omega

theorem insertedSymbol_zero {w cnt : Nat} (hc : cnt < w) (b : Symbol) (bits : List Symbol) :
    insertedSymbol w cnt (b :: bits) 0 = b := by
  simp [insertedSymbol, Nat.mod_eq_of_lt (hc.trans w.lt_succ_self), hc.ne]

/-- In an open window the lookup passes one bit. -/
theorem insertedSymbol_succ {w cnt : Nat} (hc : cnt + 1 < w) (b : Symbol) (bits : List Symbol) (k : Nat) :
    insertedSymbol w cnt (b :: bits) (k + 1) = insertedSymbol w (cnt + 1) bits k := by
  rw [insertedSymbol, insertedSymbol, show cnt + (k + 1) = cnt + 1 + k by omega, Nat.sub_add_comm (closedWindows_le hc k),
    List.getElem?_cons_succ]

/-- The bit that fills a window is followed by a RESET. -/
theorem insertedSymbol_gap (cnt : Nat) (bits : List Symbol) : insertedSymbol (cnt + 1) cnt bits 1 = .reset := by
  simp [insertedSymbol]

/-- After that RESET the lookup goes on in a fresh window. -/
theorem insertedSymbol_next (cnt : Nat) (b : Symbol) (bits : List Symbol) (k : Nat) :
    insertedSymbol (cnt + 1) cnt (b :: bits) (k + 2) = insertedSymbol (cnt + 1) 0 bits k := by
  have hle : (0 + k) / (cnt + 1 + 1) ≤ k := closedWindows_le cnt.succ_pos k
  have hindex : k + 2 - ((0 + k) / (cnt + 1 + 1) + 1) = k - (0 + k) / (cnt + 1 + 1) + 1 := by omega
  rw [insertedSymbol, insertedSymbol, show cnt + (k + 2) = 0 + k + (cnt + 1 + 1) by omega, Nat.add_mod_right,
    Nat.add_div_right _ (Nat.succ_pos _), hindex, List.getElem?_cons_succ]

/-- The inserter's output is the lookup, at every position and beyond its end (R83, R85). -/
theorem insertResets_getD {w cnt : Nat} (hc : cnt < w) (bits : List Symbol) (k : Nat) :
    (insertResets w cnt bits)[k]?.getD .reset = insertedSymbol w cnt bits k := by
  induction bits generalizing cnt k with
  | nil =>
    have hend : insertedSymbol w cnt [] k = .reset := by simp [insertedSymbol]
    rw [hend, insertResets]
    split
    · cases k <;> rfl
    · rfl
  | cons b bits ih =>
    rw [insertResets]
    split
    next hfull =>
      subst hfull
      match k with
      | 0 => exact (insertedSymbol_zero hc b bits).symm
      | 1 => exact (insertedSymbol_gap cnt _).symm
      | k + 2 => exact (ih cnt.succ_pos k).trans (insertedSymbol_next cnt b bits k).symm
    next hopen =>
      match k with
      | 0 => exact (insertedSymbol_zero hc b bits).symm
      | k + 1 => exact (ih (by omega) k).trans (insertedSymbol_succ (by omega) b bits k).symm

/-! The frame and its closed form (R83 to R86). -/

theorem frameSymbols_length (px : Nat → Pixel) (leds : Nat) {w : Nat} (hw : 1 ≤ w) :
    (frameSymbols px leds w).length = frameLength leds w := by
  rw [frameSymbols, frameLength]
  split
  next hnone => simp [hnone, ceilDiv_zero hw]
  next hsome =>
    rw [insertResets_length hw, frameBits_length, Nat.zero_add, max_eq_right (one_le_ceilDiv (by omega) hw)]

theorem frameSymbols_getLast? (px : Nat → Pixel) (leds w : Nat) : (frameSymbols px leds w).getLast? = some .reset := by
  rw [frameSymbols]
  split
  next hnone => rfl
  next hsome =>
    refine insertResets_getLast? w 0 _ (.inr fun hnil => hsome ?_)
    have hlen := frameBits_length px leds
    rw [hnil, List.length_nil] at hlen
    omega

/-- The closed form is the lookup in the frame's bits from a fresh window on (R85). -/
theorem frameSym_eq_insertedSymbol (px : Nat → Pixel) (leds w k : Nat) :
    frameSym px leds w k = insertedSymbol w 0 (frameBits px leds) k := by
  have hbit : k / (w + 1) * w + k % (w + 1) = k - k / (w + 1) := by
    have hk := Nat.div_add_mod' k (w + 1)
    rw [Nat.mul_succ] at hk
    omega
  rw [insertedSymbol, Nat.zero_add, frameBits_getElem?]
  by_cases hnone : leds = 0
  · simp [frameSym, hnone]
  · simp only [frameSym, if_neg hnone, hbit]
    split
    · rfl
    · split <;> rfl

/-- A slot's symbol is a bit of the frame or a RESET. -/
theorem frameSym_mem (px : Nat → Pixel) (leds w k : Nat) :
    frameSym px leds w k ∈ frameBits px leds ∨ frameSym px leds w k = .reset := by
  rw [frameSym_eq_insertedSymbol, insertedSymbol]
  split
  · exact .inr rfl
  · cases hbit : (frameBits px leds)[k - (0 + k) / (w + 1)]? with
    | none => exact .inr rfl
    | some y => exact .inl (List.mem_of_getElem? hbit)

/-- Below the frame's length the inserter's output is the closed form's symbol (R85). -/
theorem frameSymbols_getElem? (px : Nat → Pixel) {leds w k : Nat} (hw : 1 ≤ w) (hk : k < frameLength leds w) :
    (frameSymbols px leds w)[k]? = some (frameSym px leds w k) := by
  have hlookup : (frameSymbols px leds w)[k]?.getD .reset = frameSym px leds w k := by
    rw [frameSymbols]
    split
    next hnone => cases k <;> simp [frameSym, hnone]
    next hsome => rw [insertResets_getD hw, frameSym_eq_insertedSymbol]
  rw [← frameSymbols_length px leds hw] at hk
  rw [← hlookup, List.getElem?_eq_getElem hk, Option.getD_some]

/-- The closed form reads pixel entries 0 to L-1 only (R85). -/
theorem frameSym_congr {px px' : Nat → Pixel} {leds : Nat} (h : ∀ i, i < leds → px' i = px i) (w k : Nat) :
    frameSym px' leds w k = frameSym px leds w k := by
  rw [frameSym_eq_insertedSymbol, frameSym_eq_insertedSymbol, frameBits_congr h]

/-- No frame is longer than twice its bits, or than one RESET (R84). -/
theorem frameLength_le (leds : Nat) {w : Nat} (hw : 1 ≤ w) : frameLength leds w ≤ max 1 (48 * leds) := by
  have hgaps := ceilDiv_le_self (24 * leds) hw
  rw [frameLength]
  omega

/-- With a window of one bit every bit has its RESET (R84). -/
theorem frameLength_window_one (leds : Nat) : frameLength leds 1 = max 1 (48 * leds) := by
  rw [frameLength, ceilDiv, Nat.add_sub_cancel, Nat.div_one]
  omega

/-- In a blanking frame every pixel is black (R82). -/
theorem framePixel_of_blank {s : State} (h : s.seq.blank = true) : framePixel s = fun _ => 0#24 :=
  funext fun _ => if_pos h

end Sys2Proof.Machine
end

section
/-! PROOFS of the statements about the Frame Encoder (R82 to R86). -/

namespace Sys2Proof.Machine

/-- Settles O31: the inserter's output counts its bits and its windows, and no window is shorter than one bit. -/
theorem frameLengthLaw : Obligations.FrameLengthLaw := by
  intro px leds w hw
  refine ⟨frameSymbols_length px leds hw, rfl, fun m hm hmax hleds => ?_, frameLength_window_one leds, ?_⟩
  · have hle := frameLength_le leds hw
    omega
  · rintro blank final s h rfl rfl
    rfl

/-- Settles O32: both forms are the same lookup in the bits of the frame, which are those of entries 0 to L-1. -/
theorem symbolLookupEqualsTheFrame : Obligations.SymbolLookupEqualsTheFrame := by
  intro px leds w k hw hk
  exact ⟨frameSymbols_getElem? px hw hk, fun px' h => frameSym_congr h w k⟩

/-- Settles O33: the inserter closes its last window, and the closed form agrees with it there. -/
theorem frameEndsInReset : Obligations.FrameEndsInReset := by
  intro px leds w hw
  have hlast := frameSymbols_getLast? px leds w
  refine ⟨hlast, Option.some.inj ?_⟩
  have hpos := frameLength_pos leds w
  rw [← frameSymbols_getElem? px hw (by omega), ← frameSymbols_length px leds hw, ← List.getLast?_eq_getElem?, hlast]

/-- Settles O34: a blanking frame is one of black pixels, and every slot's symbol is one of its bits or a RESET. -/
theorem blankingFrameIsAllZero : Obligations.BlankingFrameIsAllZero := by
  intro s leds hblank
  have hbits (n : Nat) : frameBits (framePixel s) n = List.replicate (24 * n) .zero := by
    rw [framePixel_of_blank hblank, frameBits_black]
  refine ⟨hbits leds, fun k => (frameSym_mem _ _ _ k).imp_left fun hmem => ?_⟩
  rw [hbits] at hmem
  exact List.eq_of_mem_replicate hmem

end Sys2Proof.Machine
end

section
/-! SUPPORT for the proofs. The Waveform Translator: the two conversions (R89, R90), and the slot a pulse loads written
out (R91, R97, R98). -/

namespace Sys2Proof.Machine

/-! Hold cycles (R89). -/

theorem toCycles_eq (p : Params) (ns : Nat) : toCycles p ns = (ns * p.clkHz + 10 ^ 9 - 1) / 10 ^ 9 := rfl

/-- A hold of `c` cycles covers the duration exactly from `to_cycles` on: the division is the library's `⌈/⌉`. -/
theorem toCycles_le_iff {p : Params} {ns c : Nat} : toCycles p ns ≤ c ↔ ns * p.clkHz ≤ c * 10 ^ 9 := by
  rw [toCycles_eq, ← Nat.ceilDiv_eq_add_pred_div, ceilDiv_le_iff_le_mul (by decide), mul_comm c]

@[simp] theorem toCycles_zero (p : Params) : toCycles p 0 = 0 :=
  Nat.le_zero.1 (toCycles_le_iff.2 (by simp))

/-! Register counts (R90). -/

theorem toCounts_eq (p : Params) (ns : Nat) : toCounts p ns = (ns * p.pwmClkHz + 500000000) / 10 ^ 9 := rfl

@[simp] theorem toCounts_zero (p : Params) : toCounts p 0 = 0 := by simp [toCounts]

/-- Twice the distance to the exact value is at most one count, and a half is rounded up. -/
theorem toCounts_nearest (p : Params) (ns : Nat) :
    2 * 10 ^ 9 * toCounts p ns ≤ 2 * (ns * p.pwmClkHz) + 10 ^ 9 ∧
      2 * (ns * p.pwmClkHz) + 10 ^ 9 < 2 * 10 ^ 9 * (toCounts p ns + 1) := by
  rw [toCounts_eq]
  omega

theorem toCounts_le_self {p : Params} (h : p.pwmClkHz ≤ 10 ^ 9) (ns : Nat) : toCounts p ns ≤ ns := by
  have hprod : ns * p.pwmClkHz ≤ ns * 10 ^ 9 := Nat.mul_le_mul_left ns h
  rw [toCounts_eq]
  omega

/-- A counter of 1 GHz counts nanoseconds. -/
theorem toCounts_one_ghz {p : Params} (h : p.pwmClkHz = 10 ^ 9) (ns : Nat) : toCounts p ns = ns := by
  rw [toCounts_eq, h]
  omega

/-! The slot of a pulse (R91, R97, R98). -/

theorem slotOps_eq (s : State) :
    slotOps s =
      (if s.mapRegs.feat.getLsbD 8 then
        (if s.frameRegs.ctrl.getLsbD 0 then [.rdCtrl, .wrCtrlLock, .wrDuty, .rdDuty, .wrCtrlUnlock]
          else [.rdCtrl, .wrCtrlLock, .wrDuty, .wrCtrlUnlock])
      else (if s.frameRegs.ctrl.getLsbD 0 then [.wrDuty, .rdDuty] else [.wrDuty])) := by
  unfold slotOps MapRegs.lockSup FrameRegs.readback
  split <;> split <;> rfl

/-- Loading a slot writes five sequencer fields and uses up the symbol wire; the pulse's durations are added before the
conversion (R91). -/
theorem loadSlot_eq (s : State) (u : Pulse) :
    loadSlot s s u = { s with
      symbolWire := none
      seq := { s.seq with
        wduty := BitVec.ofNat 32 ((u.high.toNat * s.params.pwmClkHz + 500000000) / 10 ^ 9)
        hold := ((u.high.toNat + u.low.toNat) * s.params.clkHz + 10 ^ 9 - 1) / 10 ^ 9
        hc := 0, ops := slotOps s, phase := .slot } } := by
  rw [loadSlot, pulseDuty, pulseHold, toCounts_eq, toCycles_eq]

/-- A pulse with no high time writes a duty of 0 and holds for its low time. -/
theorem loadSlot_low (s : State) (low : Word) :
    loadSlot s s { high := 0#32, low := low } = { s with
      symbolWire := none
      seq := { s.seq with
        wduty := 0#32
        hold := (low.toNat * s.params.clkHz + 10 ^ 9 - 1) / 10 ^ 9
        hc := 0, ops := slotOps s, phase := .slot } } := by
  rw [loadSlot, pulseDuty, pulseHold, BitVec.toNat_ofNat, Nat.zero_mod, toCounts_zero, Nat.zero_add, toCycles_eq]

theorem exec_symZero (s : State) : exec .symZero s = .next (loadSlot s s (toPulse s.frameRegs .zero)) := rfl

theorem exec_symOne (s : State) : exec .symOne s = .next (loadSlot s s (toPulse s.frameRegs .one)) := rfl

theorem exec_symReset (s : State) : exec .symReset s = .next (loadSlot s s (toPulse s.frameRegs .reset)) := rfl

end Sys2Proof.Machine
end

section
/-! PROOFS of the statements about the Waveform Translator (R88 to R91). -/

namespace Sys2Proof.Machine

/-- Settles O35: `to_cycles` is the ceiling of the quotient, and a legal clock is at most 10^9 < 2^30 Hz. -/
theorem holdCyclesAreLeast : Obligations.HoldCyclesAreLeast := by
  intro p ns
  refine ⟨toCycles_eq p ns, fun c => toCycles_le_iff.symm, toCycles_zero p, ?_⟩
  rintro ⟨-, ⟨-, hclk⟩, -⟩ hns
  calc ns * p.clkHz ≤ ns * 1000000000 := Nat.mul_le_mul_left ns hclk
    _ < 2 ^ 63 := by omega

/-- Settles O36: adding half the divisor rounds to the nearest count, and a legal counter runs at 1 GHz at most. -/
theorem countsAreNearest : Obligations.CountsAreNearest := by
  intro p ns
  refine ⟨toCounts_eq p ns, toCounts_nearest p ns, ?_, toCounts_zero p, fun h => toCounts_one_ghz h ns⟩
  rintro ⟨-, -, -, hpwm⟩
  exact toCounts_le_self hpwm ns

/-- Settles O27: a symbol loads the slot of its pulse; RESET's pulse has no high time. -/
theorem symbolsLoadTheirSlots : Obligations.SymbolsLoadTheirSlots := by
  rintro s slots rfl
  rw [← slotOps_eq, exec_symZero, exec_symOne, exec_symReset]
  exact ⟨congrArg _ (loadSlot_eq s _), congrArg _ (loadSlot_eq s _), congrArg _ (loadSlot_low s _)⟩

end Sys2Proof.Machine
end

section
/-! SUPPORT for the proofs. The sequencer's edge field by field: what a cycle on the downstream port and a slot's end
write on the edge, and what they leave (R93, R94, R100 to R104). -/

namespace Sys2Proof.Machine

@[simp] theorem driveOps_params (s h : State) : (driveOps s h).params = h.params := by rw [driveOps_eq]
@[simp] theorem driveOps_backend (s h : State) : (driveOps s h).backend = h.backend := by rw [driveOps_eq]
@[simp] theorem driveOps_pulsesDone (s h : State) : (driveOps s h).pulsesDone = h.pulsesDone := by rw [driveOps_eq]
@[simp] theorem driveOps_frameLen (s h : State) : (driveOps s h).frameLen = h.frameLen := by rw [driveOps_eq]
@[simp] theorem driveOps_hostIn (s h : State) : (driveOps s h).hostIn = h.hostIn := by rw [driveOps_eq]
@[simp] theorem driveOps_dsIn (s h : State) : (driveOps s h).dsIn = h.dsIn := by rw [driveOps_eq]
@[simp] theorem driveOps_seq (s h : State) :
    (driveOps s h).seq =
      { h.seq with ops := opsLeft s, cval := if acked s .rdCtrl then (dsNow s).rdata else h.seq.cval } := by
  rw [driveOps_eq]

@[simp] theorem slotClosed_params (s h : State) : (slotClosed s h).params = h.params := by simp [slotClosed_eq]
@[simp] theorem slotClosed_backend (s h : State) : (slotClosed s h).backend = h.backend := by simp [slotClosed_eq]
@[simp] theorem slotClosed_pulsesDone (s h : State) :
    (slotClosed s h).pulsesDone = BitVec.ofNat 32 (s.pulsesDone.toNat + 1) := rfl
@[simp] theorem slotClosed_frameLen (s h : State) : (slotClosed s h).frameLen = h.frameLen := by simp [slotClosed_eq]
@[simp] theorem slotClosed_trace (s h : State) : (slotClosed s h).trace = (driveOps s h).trace := by rw [slotClosed_eq]
@[simp] theorem slotClosed_hostIn (s h : State) : (slotClosed s h).hostIn = h.hostIn := by simp [slotClosed_eq]
@[simp] theorem slotClosed_dsIn (s h : State) : (slotClosed s h).dsIn = h.dsIn := by simp [slotClosed_eq]
@[simp] theorem slotClosed_seq (s h : State) :
    (slotClosed s h).seq = { (driveOps s h).seq with hc := s.seq.hc + 1 } := by rw [slotClosed_eq]

theorem slotClosed_flags (s h : State) :
    (slotClosed s h).flags =
      if s.seq.hold < s.seq.hc + 1 then (driveOps s h).flags ||| ErrCode.overrun.flag else (driveOps s h).flags := by
  rw [slotClosed_eq]

@[simp] theorem releaseAction_trace (s h : State) : (releaseAction s h).trace = h.trace := by
  unfold releaseAction; split <;> rfl
@[simp] theorem releaseAction_cval (s h : State) : (releaseAction s h).seq.cval = h.seq.cval := by
  unfold releaseAction; split <;> rfl
@[simp] theorem releaseAction_periodValid (s h : State) : (releaseAction s h).seq.periodValid = h.seq.periodValid := by
  unfold releaseAction; split <;> rfl

theorem opsLeft_of_ack {s : State} (ha : (dsNow s).ack = true) : opsLeft s = s.seq.ops.tail := by
  cases ho : s.seq.ops <;> simp [opsLeft, ho, ha]

theorem opsLeft_of_no_ack {s : State} (ha : (dsNow s).ack = false) : opsLeft s = s.seq.ops := by
  cases ho : s.seq.ops <;> simp [opsLeft, ho, ha]

/-- Without an acknowledge a cycle on the downstream port writes nothing but the list as it was (R94). -/
theorem driveOps_of_no_ack {s : State} (ha : (dsNow s).ack = false) (h : State) :
    driveOps s h = { h with seq := { h.seq with ops := s.seq.ops } } := by
  cases ho : s.seq.ops <;> simp [driveOps, opsLeft_of_no_ack ha, ho, ha]

theorem driveOps_trace_of_acked {s : State} {op : Op} (ha : acked s op) (h : State) :
    (driveOps s h).trace = txnOf s (opRequest s op) :: h.trace := by
  obtain ⟨hhead, hack⟩ := ha
  obtain ⟨rest, ho⟩ := List.head?_eq_some_iff.1 hhead
  simp [driveOps_eq, ho, hack]

/-- A duty readback that differs raises RB_MISMATCH, bit 25 (R102). -/
theorem driveOps_mismatch {s : State} (ha : acked s .rdDuty) (hw : (dsNow s).rdata ≠ s.seq.wduty) (h : State) :
    (driveOps s h).flags.getLsbD 25 = true := by
  have hbit : ErrCode.rbMismatch.flag.getLsbD 25 = true := by decide
  rw [driveOps_eq]
  simp only [if_pos (And.intro ha hw), BitVec.getLsbD_or, hbit, Bool.or_true]

/-- A slot that ends late raises OVERRUN, bit 24 (R101). -/
theorem slotClosed_overrun {s : State} (hlate : s.seq.hold < s.seq.hc + 1) (h : State) :
    (slotClosed s h).flags.getLsbD 24 = true := by
  have hbit : ErrCode.overrun.flag.getLsbD 24 = true := by decide
  rw [slotClosed_flags, if_pos hlate, BitVec.getLsbD_or, hbit, Bool.or_true]

/-- Ending a slot clears no flag. -/
theorem slotClosed_keeps_flag {s h : State} {b : Nat} (hf : (driveOps s h).flags.getLsbD b = true) :
    (slotClosed s h).flags.getLsbD b = true := by
  rw [slotClosed_flags]
  split
  · rw [BitVec.getLsbD_or, hf, Bool.true_or]
  · exact hf

/-- Outside the idle phase an edge records, reads and raises at least what its cycle on the downstream port does. -/
theorem SeqEffect.of_driving {s h u : State} (x : SeqEffect s h u) (hp : s.seq.phase ≠ .idle) :
    u.trace = (driveOps s h).trace ∧ u.seq.cval = (driveOps s h).seq.cval ∧
      ∀ b, (driveOps s h).flags.getLsbD b = true → u.flags.getLsbD b = true := by
  cases x with
  | idle hidle | release hidle => exact absurd hidle hp
  | running | holding | periodSet | firstSlot => exact ⟨rfl, rfl, fun _ hf => hf⟩
  | nextSlot => exact ⟨by simp, by simp, fun _ hf => slotClosed_keeps_flag hf⟩
  | frameEnded =>
    refine ⟨by simp, by simp, fun b hf => ?_⟩
    rw [frameEnd_flags, BitVec.getLsbD_or, slotClosed_keeps_flag hf, Bool.true_or]

/-- While an operation is left, the phase goes on and a slot's cycle is counted (R94, R100). -/
theorem SeqEffect.phase_goes_on {s h u : State} (x : SeqEffect s h u) (hp : s.seq.phase ≠ .idle)
    (ho : opsLeft s ≠ []) : u = { driveOps s h with seq := { (driveOps s h).seq with
      hc := if s.seq.phase = .slot then s.seq.hc + 1 else h.seq.hc } } := by
  cases x with
  | idle hidle | release hidle => exact absurd hidle hp
  | running hrun => rcases hrun with hrun | hrun <;> simp [hrun, driveOps_eq]
  | holding hslot => rw [if_pos hslot]
  | periodSet _ hnil | firstSlot _ hnil => exact absurd hnil ho
  | nextSlot he => exact absurd he.2.1 ho
  | frameEnded he => exact absurd he.1.2.1 ho

/-- PERIOD_VALID rises at the end of a SETP phase and at no other edge (R23, R105). -/
theorem SeqEffect.periodValid_eq {s h u : State} (x : SeqEffect s h u) :
    u.seq.periodValid = if s.seq.phase = .setp ∧ opsLeft s = [] then true else h.seq.periodValid := by
  cases x with
  | idle hp | release hp | firstSlot hp | holding hp => simp [hp]
  | running _ ho => simp [ho]
  | periodSet hp ho => simp [hp, ho]
  | nextSlot he => simp [he.1]
  | frameEnded he => simp [he.1.1]

/-! The edge phase by phase, and the start of a slot (R85, R88, R96, R97, R105). -/

theorem seqEdge_setp {s : State} (hp : s.seq.phase = .setp) (h : State) : seqEdge s h = .next (setpEdge s h) := by
  simp [seqEdge, hp]

theorem seqEdge_pro_done {s : State} (hp : s.seq.phase = .pro) (ho : opsLeft s = []) (h : State) :
    seqEdge s h = startSlot 0 s (driveOps s h) := by
  simp [seqEdge, proEdge, hp, ho]

/-- The edge that ends a frame is the frame end on the closed slot (R103, R104). -/
theorem SeqEffect.of_frameEnds {s h u : State} (x : SeqEffect s h u) (hends : frameEnds s) :
    u = frameEnd s (slotClosed s h) := by
  cases x with
  | idle hp | release hp | firstSlot hp | periodSet hp => simp [frameEnds, slotEnds, hp] at hends
  | running hp => rcases hp with hp | hp <;> simp [frameEnds, slotEnds, hp] at hends
  | holding _ hgoes => exact absurd hends.1 hgoes
  | nextSlot _ hmore => exact absurd hmore (Nat.not_lt.2 hends.2)
  | frameEnded => rfl

/-- A symbol run as an instruction loads the slot of its pulse (R88, R97). -/
theorem exec_decodeSymbol (y : Symbol) (s : State) :
    exec (decodeSymbol (symbolToCode y)) s = .next (loadSlot s s (toPulse s.frameRegs y)) := by
  cases y <;> rfl

theorem symbolOfCode_of_reserved {c : SymCode} (hc : decodeSymbol c = .symReserved) : symbolOfCode c = none := by
  unfold decodeSymbol at hc
  unfold symbolOfCode
  repeat' split at hc
  all_goals simp_all

theorem Inv.symbolAt_eq {s : State} (hi : Inv s) (k : Nat) : symbolAt s k = symbolToCode (slotSymbol s k) := by
  simp [symbolAt, hi.wireFree]

/-- With no symbol forced a slot is loaded with the Frame Encoder's symbol (R85, R97). -/
theorem Inv.startSlot_eq {s : State} (hi : Inv s) (k : Nat) (h : State) :
    startSlot k s h = .next (loadSlot s h (toPulse s.frameRegs (slotSymbol s k))) := by
  rw [startSlot, hi.symbolAt_eq, symbolOfCode_toCode]

end Sys2Proof.Machine
end

section
/-! SUPPORT for the proofs. What the host's edge leaves to the sequencer, the two edges of a step, and the downstream
port (R44, R54, R73, R93, R94, R108). -/

namespace Sys2Proof.Machine

/-- No access or command writes the record of transactions, `seq.cval` or PERIOD_VALID (R44, R108). -/
theorem HostEdge.keeps_records {s h : State} (e : HostEdge s h) :
    h.trace = s.trace ∧ h.seq.cval = s.seq.cval ∧ h.seq.periodValid = s.seq.periodValid := by
  cases e with
  | quiet => simp
  | access i _ _ he =>
    cases he with
    | store r d =>
      obtain ⟨-, -, -, -, -, -, -, -, -, hseq, htrace, -⟩ := storeCsr_keeps r d s
      simp [hseq, htrace]
    | _ => simp

/-- While BUSY no access or command writes STATE, and of the sequencer none but `rel_pend` (R108, R120). -/
theorem HostEdge.seq_of_busy {s h : State} (e : HostEdge s h) (hb : s.busy = true) :
    h.backend = s.backend ∧ ∃ r, h.seq = { s.seq with relPend := r } := by
  have idle : s.busy ≠ false := by simp [hb]
  cases e with
  | quiet => exact ⟨rfl, _, rfl⟩
  | access i _ _ he =>
    cases he with
    | store r d =>
      obtain ⟨-, hbackend, -, -, -, -, -, -, -, hseq, -⟩ := storeCsr_keeps r d s
      exact ⟨hbackend, s.seq.relPend, hseq⟩
    | opened _ hb' | periodStarted hb' | transmitted _ hb' | closed _ hb' | released _ _ hb' => exact absurd hb' idle
    | _ => exact ⟨rfl, _, rfl⟩

theorem busy_of_phase {s : State} (hp : s.seq.phase ≠ .idle) : s.busy = true := by
  simp [State.busy, hp]

/-- A step without reset: the host's edge, and the sequencer's effect on it. -/
theorem step_edges {s t : State} (hr : noReset s) (hstep : step s = .next t) :
    ∃ h u, hostEdge s = .next h ∧ HostEdge s h ∧ SeqEffect s h u ∧ t = nextCycle u := by
  rcases step_cases hstep with ⟨hrst, -⟩ | ⟨-, hedges⟩
  · exact absurd (hrst.symm.trans hr) (by simp)
  · exact hedges

/-- The same from a state of the invariant in a phase that drives the port: the host's edge is the state but for what an
access can reach there (R108). -/
theorem Inv.step_edges_of_phase {s t : State} (hi : Inv s) (hr : noReset s) (hp : s.seq.phase ≠ .idle)
    (hstep : step s = .next t) :
    ∃ f l q r p u, hostEdge s = .next (hostTouched s f l q r p) ∧ SeqEffect s (hostTouched s f l q r p) u ∧
      t = Machine.nextCycle u := by
  have hb := busy_of_phase hp
  obtain ⟨h, u, hh, he, hu, rfl⟩ := step_edges hr hstep
  obtain ⟨f, l, q, r, p, rfl⟩ := he.eq_hostTouched hb (hi.not_uninitialized_of_busy hb)
  exact ⟨f, l, q, r, p, u, hh, hu, rfl⟩

/-- In a cycle without reset and without access the step is the sequencer's edge alone. -/
theorem step_of_quiet {s u : State} (hq : hostQuiet s) (hu : seqEdge s (noAccess s) = .next u) :
    step s = .next (nextCycle u) := by
  have hf : fetchAccess s = none := by simp [fetchAccess, hq]
  exact step_of_edges (by simp [noReset, hq]) (by simp [hostEdge, hf]) hu

/-! The downstream port. -/

theorem dsPort_eq_none {s : State} (h : s.seq.phase = .idle ∨ s.seq.ops = []) : dsPort s = none := by
  cases hq : dsPort s with
  | none => rfl
  | some q =>
    obtain ⟨hphase, op, hhead, -⟩ := dsPort_eq_some hq
    rcases h with h | h
    · exact absurd h hphase
    · simp [h] at hhead

theorem dsPort_of_ops {s : State} (hr : noReset s) (hp : s.seq.phase ≠ .idle) {op : Op} {rest : List Op}
    (ho : s.seq.ops = op :: rest) : dsPort s = some (opRequest s op) := by
  cases hphase : s.seq.phase <;> simp_all [dsPort]

/-- A byte as a number is the byte zero-extended. -/
theorem ofNat_toNat_byte (x : BitVec 8) : BitVec.ofNat 32 x.toNat = 0#24 ++ x := by
  rw [BitVec.ofNat_toNat, BitVec.setWidth_eq_append (by decide)]
  rfl

theorem lockMask_eq (m : MapRegs) : m.lockMask = BitVec.ofNat 32 (2 ^ (m.feat.toNat % 32)) := by
  have hbit : m.lockBit = m.feat.toNat % 32 := by simp [MapRegs.lockBit]
  rw [MapRegs.lockMask, hbit, ← BitVec.toNat_inj]
  simp [Nat.shiftLeft_eq]

end Sys2Proof.Machine
end

section
/-! PROOFS of the statements about the downstream port and its operations (R93, R94, R102, R107, R140). -/

namespace Sys2Proof.Machine

/-- Settles O37: the head operation's transaction, with the three addresses and the lock mask as R73 gives them. -/
theorem drivenTransactions : Obligations.DrivenTransactions := by
  rintro s aPeriod aDuty aCtrl lock hr rfl rfl rfl rfl
  refine ⟨dsPort_eq_none, fun hp op rest ho => ?_⟩
  rw [dsPort_of_ops hr hp ho]
  simp only [← ofNat_toNat_byte, ← lockMask_eq]
  cases op <;> rfl

/-- Settles O57: the invariant rules out a forced symbol, the one thing that stops a step. -/
theorem invStatesNeverStop : Obligations.InvStatesNeverStop :=
  fun _ hi => step_completes hi.wireFree

/-- Settles O39: the host reaches nothing a transaction is made of, and without an acknowledge the list stays. -/
theorem unacknowledgedTransactionWaits : Obligations.UnacknowledgedTransactionWaits := by
  intro s op rest hi hr hp ho ha
  obtain ⟨t, hstep⟩ := step_completes hi.wireFree
  obtain ⟨f, l, q, r, p, u, -, hu, rfl⟩ := hi.step_edges_of_phase hr hp hstep
  have hleft : opsLeft s ≠ [] := by simp [opsLeft_of_no_ack ha, ho]
  have hwaits := hu.phase_goes_on hp hleft
  rw [driveOps_of_no_ack ha] at hwaits
  subst hwaits
  exact ⟨_, hstep, rfl, rfl, rfl, busy_of_phase (by exact hp), rfl, rfl, rfl, by cases op <;> rfl, rfl⟩

/-- Settles O40: the host's edge leaves the record, `seq.cval` and RB_DUTY, and the sequencer's cycle on the port gives
the operation its effect. -/
theorem acknowledgeCompletesTheOperation : Obligations.AcknowledgeCompletesTheOperation := by
  rintro s t op hr ⟨hp, hacked⟩ hstep
  obtain ⟨h, u, -, he, hu, rfl⟩ := step_edges hr hstep
  obtain ⟨htrace, hcval, -⟩ := he.keeps_records
  obtain ⟨hutrace, hucval, huflags⟩ := hu.of_driving hp
  have hone (op' : Op) : acked s op' ↔ op = op' := by simp [acked, hacked.1, hacked.2]
  refine ⟨⟨txnOf s (opRequest s op), ?_, ?_, ?_⟩, ?_, ?_, ?_, ?_⟩
  · rw [nextCycle_trace, hutrace, driveOps_trace_of_acked hacked, htrace]
  · cases opRequest s op <;> rfl
  · cases opRequest s op <;> exact ⟨rfl, rfl, rfl⟩
  · simp only [nextCycle_seq, hucval, driveOps_seq, hcval, hone]
  · simp only [nextCycle_rbDuty, hu.rbDuty_eq, he.counters.2, completes, hp, hone, ne_eq, not_false_eq_true, true_and]
  · rintro rfl hw
    exact huflags 25 (driveOps_mismatch hacked hw h)
  · intro hrest
    obtain ⟨-, p, hseq⟩ := he.seq_of_busy (busy_of_phase hp)
    have hleft := opsLeft_of_ack hacked.2
    rw [hu.phase_goes_on hp (hleft ▸ hrest)]
    simp [hleft, hseq]

end Sys2Proof.Machine
end

section
/-! PROOFS of the statements about the phases: an idle cycle, SET_PERIOD, the start of a frame's first slot, and the end
of a slot and of a frame (R96 to R106). -/

namespace Sys2Proof.Machine

/-- Settles O44: an idle phase drives nothing, and does nothing but run a pending release. -/
theorem idleCycleRunsThePendingRelease : Obligations.IdleCycleRunsThePendingRelease := by
  intro s t hr hp hstep
  obtain ⟨h, u, hh, he, hu, rfl⟩ := step_edges hr hstep
  obtain ⟨htrace, -, -⟩ := he.keeps_records
  refine ⟨dsPort_eq_none (.inl hp), ?_⟩
  cases hu with
  | idle _ hrel =>
    refine ⟨htrace, fun _ h' hh' => ?_, fun hrel' => absurd (hrel.symm.trans hrel') (by simp)⟩
    cases hh.symm.trans hh'
    rfl
  | release _ hrel =>
    obtain ⟨-, p, hseq⟩ := he.seq_of_busy (busy_of_relPend hrel)
    refine ⟨by simp [htrace], fun hrel' => absurd (hrel.symm.trans hrel') (by simp), fun _ _ => ⟨?_, ?_, ?_⟩⟩
    · rw [releaseAction]
      split <;> rfl
    · intro hgood
      rw [releaseAction, if_pos (Bool.and_eq_true_iff.2 hgood)]
      exact ⟨rfl, rfl, rfl, rfl, rfl, rfl, rfl⟩
    · intro hbad
      rw [releaseAction, if_neg (mt Bool.and_eq_true_iff.1 hbad)]
      exact ⟨rfl, by simp [hseq, hp]⟩
  | running hp' | holding hp' | periodSet hp' | firstSlot hp' => simp [hp] at hp'
  | nextSlot he' => simp [slotEnds, hp] at he'
  | frameEnded he' => simp [frameEnds, slotEnds, hp] at he'

/-- Settles O43: an acknowledge takes the only operation and ends the phase; no other edge writes PERIOD_VALID. -/
theorem setPeriodCompletes : Obligations.SetPeriodCompletes := by
  refine ⟨fun s hq hp ho => ⟨fun ha => ?_, fun ha => ?_⟩, fun s hr hp ho ha => ?_, fun s t hr hstep => ?_⟩
  · refine ⟨txnOf s (opRequest s .wrPeriod), rfl, rfl, rfl, ?_⟩
    rw [step_of_quiet hq (seqEdge_setp hp _)]
    simp [setpEdge, opsLeft, driveOps, completeOp, ho, ha, nextCycle, noAccess]
  · rw [step_of_quiet hq (seqEdge_setp hp _), setpEdge, if_neg (by simp [opsLeft_of_no_ack ha, ho]),
      driveOps_of_no_ack ha]
    rfl
  · have hleft : opsLeft s = [] := by simp [opsLeft_of_ack ha, ho]
    obtain ⟨h, hh⟩ := hostEdge_completes s
    obtain ⟨hbackend, -⟩ := (hostEdge_cases hh).seq_of_busy (busy_of_phase (by simp [hp]))
    refine ⟨_, step_of_edges hr hh (seqEdge_setp hp h), ?_⟩
    simp [setpEdge, hleft, hbackend]
  · obtain ⟨h, u, -, he, hu, rfl⟩ := step_edges hr hstep
    obtain ⟨-, -, hkept⟩ := he.keeps_records
    have hvalid := hu.periodValid_eq
    rw [hkept] at hvalid
    rw [nextCycle_seq, hvalid]
    exact ⟨fun hv => by simp [hv], fun hv => by simp [hv]⟩

/-- Settles O8: slot 0 is loaded from registers that neither the host nor the completed operation has changed. -/
theorem stepRunsTheSymbol : Obligations.StepRunsTheSymbol := by
  refine ⟨?_, fun s hr hp ho hcode => ?_⟩
  · rintro s i hi hr hp ho ha rfl
    have hleft : opsLeft s = [] := by simp [opsLeft_of_ack ha, ho]
    have hphase : s.seq.phase ≠ .idle := by simp [hp]
    have hb := busy_of_phase hphase
    obtain ⟨hzero, -⟩ := (frameProgress_pro hp).1 hi.progress
    obtain ⟨h, hh⟩ := hostEdge_completes s
    obtain ⟨f, l, q, r, p, rfl⟩ := (hostEdge_cases hh).eq_hostTouched hb (hi.not_uninitialized_of_busy hb)
    have hstart : seqEdge s (hostTouched s f l q r p) = .next (loadSlot s (driveOps s (hostTouched s f l q r p))
        (toPulse s.frameRegs (slotSymbol s 0))) := by
      rw [seqEdge_pro_done hp hleft, hi.startSlot_eq]
    refine ⟨_, _, _, hh, ?_, step_of_edges hr hh hstart, rfl, ?_, rfl, rfl, rfl, rfl, rfl,
      ?_, by simp [hostTouched], ?_⟩
    · rw [hi.symbolAt_eq, exec_decodeSymbol, loadSlot_congr (s := s) (by simp [hostTouched]) (by simp [hostTouched])
        (by simp [hostTouched])]
      simp [hostTouched]
    · rw [hi.symbolAt_eq]
      cases slotSymbol s 0 <;> rfl
    · simpa [hostTouched] using hzero
    · simpa [hostTouched] using hi.transmittingIff.2 (.inl hp)
  · obtain ⟨h, hh⟩ := hostEdge_completes s
    simp [step, hr, hh, seqEdge_pro_done hp ho, startSlot, symbolOfCode_of_reserved hcode]

/-- Settles O41: a slot holds while it has operations or time left; its end counts the pulse and loads what follows. -/
theorem slotHoldRule : Obligations.SlotHoldRule := by
  intro s t hi hr hp hstep
  obtain ⟨hpulse, -⟩ := (frameProgress_slot hp).1 hi.progress
  have hcount : (BitVec.ofNat 32 (s.pulsesDone.toNat + 1)).toNat = s.pulsesDone.toNat + 1 := by
    rw [BitVec.toNat_ofNat, Nat.mod_eq_of_lt (by omega)]
  obtain ⟨f, l, q, r, p, u, -, hu, rfl⟩ := hi.step_edges_of_phase hr (by simp [hp]) hstep
  cases hu with
  | idle hp' | release hp' | periodSet hp' | firstSlot hp' => simp [hp] at hp'
  | running hp' => simp [hp] at hp'
  | holding _ hgoes =>
    refine ⟨fun _ => ⟨?_, rfl, ?_, ?_, ?_⟩, fun hends => absurd hends hgoes⟩
    · simpa [hostTouched] using hp
    · simp [hostTouched]
    · simp [hostTouched]
    · simp [hostTouched]
  | nextSlot hends hmore y hy =>
    refine ⟨fun hgoes => absurd hends hgoes, fun _ => ⟨by simpa using hcount,
      fun hlate => slotClosed_overrun hlate _, fun _ => ?_, fun hlast => absurd hmore (Nat.not_lt.2 hlast)⟩⟩
    rw [hi.symbol_eq hy]
    exact ⟨rfl, rfl, rfl, by simpa [hostTouched] using hi.transmittingIff.2 (.inr hp), rfl, rfl⟩
  | frameEnded hends =>
    refine ⟨fun hgoes => absurd hends.1 hgoes, fun _ => ⟨by simpa using hcount, fun hlate => ?_,
      fun hmore => absurd hmore (Nat.not_lt.2 hends.2), fun _ => rfl⟩⟩
    rw [nextCycle_flags, frameEnd_flags, BitVec.getLsbD_or, slotClosed_overrun hlate, Bool.true_or]

/-- Settles O42: the frame end writes these fields last, whatever the host does in its cycle. -/
theorem frameEndEffects : Obligations.FrameEndEffects := by
  intro s t _ hr hends hstep
  obtain ⟨h, u, -, -, hu, rfl⟩ := step_edges hr hstep
  have hdone : doneFlag.getLsbD 8 = true := by decide
  rw [hu.of_frameEnds hends]
  refine ⟨rfl, rfl, rfl, rfl, rfl, ?_, rfl⟩
  rw [nextCycle_flags, frameEnd_flags, BitVec.getLsbD_or, hdone, Bool.or_true]

end Sys2Proof.Machine
end

section
/-! SUPPORT for the proofs. Runs, cycles in which the host is silent and the device acknowledges at once, and the count
of transactions (R7, R54, R94, R109). -/

namespace Sys2Proof.Machine

/-! The run of the machine. -/

theorem run_zero (s : State) : core.run 0 s = .next s := rfl

theorem run_succ {s t : State} (hstep : step s = .next t) (k : Nat) : core.run (k + 1) s = core.run k t := by
  have hcore : core.step s = .next t := hstep
  simp only [Host.Core.run, hcore]

/-- What holds now, and for `n` cycles of the run from the next state on, holds for `n + 1` cycles. -/
theorem run_succ_stays {P : Nat → State → Prop} {s t : State} {n : Nat} (hstep : step s = .next t) (hnow : P 0 s)
    (hlater : ∀ m, m < n → ∃ u, core.run m t = .next u ∧ P (m + 1) u) :
    ∀ m, m < n + 1 → ∃ u, core.run m s = .next u ∧ P m u := by
  intro m hm
  cases m with
  | zero => exact ⟨s, run_zero s, hnow⟩
  | succ m =>
    obtain ⟨u, hrun, hu⟩ := hlater m (by omega)
    exact ⟨u, (run_succ hstep m).trans hrun, hu⟩

/-! The pins. -/

/-- No reset and no host access from this cycle on, and an acknowledge in each of the next `n` cycles. -/
structure Calm (n : Nat) (s : State) : Prop where
  host : ∀ p ∈ s.hostIn, p = { rst := false, acc := none }
  pins : n ≤ s.dsIn.length
  acks : ∀ d ∈ s.dsIn.take n, d.ack = true

theorem Calm.quiet {n : Nat} {s : State} (c : Calm n s) : hostQuiet s := by
  cases hin : s.hostIn with
  | nil => simp [hostQuiet, hostNow, hin]
  | cons p rest => exact (hostNow_of_hostIn hin).trans (c.host p (by simp [hin]))

theorem Calm.noReset {n : Nat} {s : State} (c : Calm n s) : noReset s := by
  rw [Machine.noReset, c.quiet]

theorem Calm.ack {n : Nat} {s : State} (c : Calm (n + 1) s) : (dsNow s).ack = true := by
  cases hin : s.dsIn with
  | nil => exact absurd c.pins (by simp [hin])
  | cons d rest => simpa [dsNow, hin] using c.acks d (by simp [hin])

/-- Calm goes on in a state that takes the next pins of the device, if its host is silent. -/
theorem calm_of_tail {n : Nat} {s t : State} (hhost : ∀ p ∈ t.hostIn, p = { rst := false, acc := none })
    (hds : t.dsIn = s.dsIn.tail) (hpins : n + 1 ≤ s.dsIn.length)
    (hacks : ∀ d ∈ s.dsIn.take (n + 1), d.ack = true) : Calm n t where
  host := hhost
  pins := by
    rw [hds, List.length_tail]
    omega
  acks d hd := by
    rw [hds, ← Nat.add_sub_cancel (n := n) (m := 1), ← List.tail_take_eq_take_tail] at hd
    exact hacks d (List.mem_of_mem_tail hd)

@[simp] theorem releaseAction_hostIn (s h : State) : (releaseAction s h).hostIn = h.hostIn := by
  unfold releaseAction; split <;> rfl
@[simp] theorem releaseAction_dsIn (s h : State) : (releaseAction s h).dsIn = h.dsIn := by
  unfold releaseAction; split <;> rfl

theorem HostEdge.keeps_pins {s h : State} (e : HostEdge s h) : h.hostIn = s.hostIn ∧ h.dsIn = s.dsIn := by
  cases e with
  | quiet => simp
  | access i _ _ he =>
    cases he with
    | store r d =>
      obtain ⟨-, -, -, -, -, -, -, -, -, -, -, -, hhost, hds, -⟩ := storeCsr_keeps r d s
      exact ⟨hhost, hds⟩
    | _ => simp

theorem SeqEffect.keeps_pins {s h u : State} (x : SeqEffect s h u) : u.hostIn = h.hostIn ∧ u.dsIn = h.dsIn := by
  cases x <;> simp

theorem Calm.next {n : Nat} {s t : State} (c : Calm (n + 1) s) (hstep : step s = .next t) : Calm n t := by
  obtain ⟨h, u, -, he, hu, rfl⟩ := step_edges c.noReset hstep
  obtain ⟨hhost, hds⟩ := he.keeps_pins
  obtain ⟨hhost', hds'⟩ := hu.keeps_pins
  refine calm_of_tail (fun p hp => c.host p (List.mem_of_mem_tail ?_)) (by rw [nextCycle_dsIn, hds', hds]) c.pins c.acks
  rwa [nextCycle_hostIn, hhost', hhost] at hp

/-- In a quiet cycle the sequencer writes on the state itself. -/
theorem quiet_step_effect {s t : State} (hq : hostQuiet s) (hstep : step s = .next t) :
    ∃ u, SeqEffect s (noAccess s) u ∧ t = nextCycle u := by
  obtain ⟨h, u, hh, -, hu, rfl⟩ := step_edges (by rw [noReset, hq]) hstep
  have hf : fetchAccess s = none := by simp [fetchAccess, hq]
  simp only [hostEdge, hf] at hh
  cases hh
  exact ⟨u, hu, rfl⟩

/-! Transactions: each cycle records as many as it takes off the list. -/

theorem driveOps_trace_length (s h : State) :
    (driveOps s h).trace.length + (opsLeft s).length = h.trace.length + s.seq.ops.length := by
  cases ho : s.seq.ops with
  | nil => simp [driveOps_eq, opsLeft, ho]
  | cons op rest =>
    cases ha : (dsNow s).ack with
    | false => simp [driveOps_eq, opsLeft, ho, ha]
    | true => simp [driveOps_eq, opsLeft, ho, ha, Nat.add_right_comm, Nat.add_assoc]

theorem step_trace_length {s t : State} (hr : noReset s) (hp : s.seq.phase ≠ .idle) (hstep : step s = .next t) :
    t.trace.length + (opsLeft s).length = s.trace.length + s.seq.ops.length := by
  obtain ⟨h, u, -, he, hu, rfl⟩ := step_edges hr hstep
  rw [nextCycle_trace, (hu.of_driving hp).1, driveOps_trace_length, he.keeps_records.1]

end Sys2Proof.Machine
end

section
/-! SUPPORT for the proofs. What is left of a slot, and that each of its cycles takes one off (R99, R100). -/

namespace Sys2Proof.Machine

/-- The cycles left of the current slot when every transaction is acknowledged at once (R100). -/
def slotLeft (s : State) : Nat := max (s.seq.hold - s.seq.hc) s.seq.ops.length

theorem Inv.slotLeft_pos {s : State} (hi : Inv s) (hp : s.seq.phase = .slot) : 0 < slotLeft s := by
  obtain ⟨-, -, hhold⟩ := (slotLoaded_slot hp).1 hi.slot
  cases ho : s.seq.ops with
  | nil => simp [slotLeft, ho, hhold ho]
  | cons op rest => simp [slotLeft, ho]

theorem slotEnds_iff_slotLeft {s : State} (hp : s.seq.phase = .slot) (ha : (dsNow s).ack = true) :
    slotEnds s ↔ slotLeft s ≤ 1 := by
  rw [slotEnds, opsLeft_of_ack ha, ← List.length_eq_zero_iff, List.length_tail, slotLeft]
  simp only [hp, true_and]
  omega

/-- A slot that goes on has taken its acknowledged operation off the list. -/
theorem slot_ops_of_goes_on {s t : State} (hr : noReset s) (hp : s.seq.phase = .slot) (hgoes : ¬ slotEnds s)
    (hstep : step s = .next t) : t.seq.ops = opsLeft s := by
  obtain ⟨h, u, -, -, hu, rfl⟩ := step_edges hr hstep
  cases hu with
  | idle hp' | release hp' | periodSet hp' | firstSlot hp' | running hp' => simp [hp] at hp'
  | holding => simp
  | nextSlot hends => exact absurd hends hgoes
  | frameEnded hends => exact absurd hends.1 hgoes

/-- A cycle of a slot that goes on takes one off what is left of it (R100). -/
theorem slotLeft_of_goes_on {s t : State} (hi : Inv s) (hr : noReset s) (hp : s.seq.phase = .slot)
    (ha : (dsNow s).ack = true) (hgoes : ¬ slotEnds s) (hstep : step s = .next t) : slotLeft t + 1 = slotLeft s := by
  obtain ⟨-, hhc, -, hhold, -⟩ := (slotHoldRule s t hi hr hp hstep).1 hgoes
  rw [slotEnds_iff_slotLeft hp ha, slotLeft] at hgoes
  rw [slotLeft, slotLeft, hhc, hhold, slot_ops_of_goes_on hr hp (by rwa [slotEnds_iff_slotLeft hp ha]) hstep,
    opsLeft_of_ack ha, List.length_tail]
  omega

/-- A slot in calm runs for the cycles left of it, then counts its pulse with all its operations done (R100). -/
theorem slot_run {n : Nat} {s : State} (hi : Inv s) (hp : s.seq.phase = .slot) (hn : slotLeft s = n) (c : Calm n s) :
    (∀ m, m < n → ∃ t, core.run m s = .next t ∧
      (t.seq.phase = .slot ∧ t.pulsesDone = s.pulsesDone ∧ t.seq.hc = s.seq.hc + m)) ∧
    (∃ t, core.run n s = .next t ∧ t.pulsesDone.toNat = s.pulsesDone.toNat + 1 ∧
      t.trace.length = s.trace.length + s.seq.ops.length) := by
  induction n generalizing s with
  | zero => exact absurd (hi.slotLeft_pos hp) (by omega)
  | succ n ih =>
    obtain ⟨t, hstep⟩ := step_completes hi.wireFree
    obtain ⟨hgoing, hending⟩ := slotHoldRule s t hi c.noReset hp hstep
    have htrace := step_trace_length c.noReset (by simp [hp]) hstep
    by_cases hends : slotEnds s
    · obtain rfl : n = 0 := by
        have := (slotEnds_iff_slotLeft hp c.ack).1 hends
        omega
      rw [hends.2.1, List.length_nil, Nat.add_zero] at htrace
      exact ⟨run_succ_stays hstep ⟨hp, rfl, rfl⟩ (by simp),
        t, (run_succ hstep 0).trans (run_zero t), (hending hends).1, htrace⟩
    · obtain ⟨hphase, hhc, hpulses, -, -⟩ := hgoing hends
      have hleft := slotLeft_of_goes_on hi c.noReset hp c.ack hends hstep
      obtain ⟨hstays, u, hrun, hdone, hops⟩ :=
        ih (invIsKeptByEveryStep s t hi hstep) hphase (by omega) (c.next hstep)
      refine ⟨run_succ_stays hstep ⟨hp, rfl, rfl⟩ fun m hm => ?_, u, (run_succ hstep n).trans hrun, ?_, ?_⟩
      · obtain ⟨v, hv, hphase', hpulses', hhc'⟩ := hstays m hm
        exact ⟨v, hv, hphase', hpulses'.trans hpulses, by omega⟩
      · rw [hdone, hpulses]
      · rw [hops, slot_ops_of_goes_on c.noReset hp hends hstep, htrace]

end Sys2Proof.Machine
end

section
/-! SUPPORT for the proofs. What is left of a frame, and that each of its cycles takes one off (R94, R96, R100,
R103, R109). -/

namespace Sys2Proof.Machine

/-- The cycles slot `k` of the frame takes when every transaction is acknowledged at once (R100). -/
def slotCycles (s : State) (k : Nat) : Nat :=
  max (pulseHold s.params (toPulse s.frameRegs (slotSymbol s k))) (slotOps s).length

/-- The cycles of the frame's slots from slot `k` on. -/
def slotsFrom (s : State) (k : Nat) : Nat :=
  ((List.range' k (s.frameLen.toNat - k)).map (slotCycles s)).sum

/-- The cycles left of the frame when every transaction is acknowledged at once (R109). -/
def cyclesLeft (s : State) : Nat :=
  match s.seq.phase with
  | .pro => s.seq.ops.length + slotsFrom s 0
  | .slot => slotLeft s + slotsFrom s (s.pulsesDone.toNat + 1)
  | .idle | .setp => 0

/-- The transactions left of the frame. -/
def txnsLeft (s : State) : Nat :=
  match s.seq.phase with
  | .pro => s.seq.ops.length + s.frameLen.toNat * (slotOps s).length
  | .slot => s.seq.ops.length + (s.frameLen.toNat - (s.pulsesDone.toNat + 1)) * (slotOps s).length
  | .idle | .setp => 0

section
variable {s : State}

theorem cyclesLeft_pro (hp : s.seq.phase = .pro) : cyclesLeft s = s.seq.ops.length + slotsFrom s 0 := by
  simp [cyclesLeft, hp]
theorem cyclesLeft_slot (hp : s.seq.phase = .slot) :
    cyclesLeft s = slotLeft s + slotsFrom s (s.pulsesDone.toNat + 1) := by
  simp [cyclesLeft, hp]
theorem cyclesLeft_idle (hp : s.seq.phase = .idle) : cyclesLeft s = 0 := by simp [cyclesLeft, hp]
theorem txnsLeft_pro (hp : s.seq.phase = .pro) :
    txnsLeft s = s.seq.ops.length + s.frameLen.toNat * (slotOps s).length := by
  simp [txnsLeft, hp]
theorem txnsLeft_slot (hp : s.seq.phase = .slot) :
    txnsLeft s = s.seq.ops.length + (s.frameLen.toNat - (s.pulsesDone.toNat + 1)) * (slotOps s).length := by
  simp [txnsLeft, hp]
theorem txnsLeft_idle (hp : s.seq.phase = .idle) : txnsLeft s = 0 := by simp [txnsLeft, hp]

theorem slotsFrom_lt {k : Nat} (hk : k < s.frameLen.toNat) : slotsFrom s k = slotCycles s k + slotsFrom s (k + 1) := by
  have hcount : s.frameLen.toNat - k = s.frameLen.toNat - (k + 1) + 1 := by omega
  rw [slotsFrom, hcount, List.range'_succ, List.map_cons, List.sum_cons, slotsFrom]

theorem slotsFrom_end {k : Nat} (hk : s.frameLen.toNat ≤ k) : slotsFrom s k = 0 := by
  simp [slotsFrom, Nat.sub_eq_zero_of_le hk]

theorem Inv.cyclesLeft_pos (hi : Inv s) (hb : s.backend = .transmitting) : 0 < cyclesLeft s := by
  rcases hi.transmittingIff.1 hb with hp | hp
  · have hne := List.length_pos_of_ne_nil ((opsShape_pro hp).1 hi.ops).1
    rw [cyclesLeft_pro hp]
    omega
  · have hpos := hi.slotLeft_pos hp
    rw [cyclesLeft_slot hp]
    omega

/-- In a slot's first cycle the whole slot is left, and with it all from its number on (R97). -/
theorem Inv.left_of_slot_start (hi : Inv s) (hp : s.seq.phase = .slot) (hhc : s.seq.hc = 0)
    (hops : s.seq.ops = slotOps s) :
    cyclesLeft s = slotsFrom s s.pulsesDone.toNat ∧
      txnsLeft s = (s.frameLen.toNat - s.pulsesDone.toNat) * (slotOps s).length := by
  obtain ⟨hk, -⟩ := (frameProgress_slot hp).1 hi.progress
  obtain ⟨-, hhold, -⟩ := (slotLoaded_slot hp).1 hi.slot
  have hcount : s.frameLen.toNat - s.pulsesDone.toNat = s.frameLen.toNat - (s.pulsesDone.toNat + 1) + 1 := by omega
  constructor
  · rw [cyclesLeft_slot hp, slotsFrom_lt hk, slotLeft, hhc, Nat.sub_zero, hhold, hops, slotCycles]
  · rw [txnsLeft_slot hp, hops, hcount, Nat.succ_mul, Nat.add_comm]

end

/-- `t` is in the same frame as `s`, with the same inputs and nothing pending that was not. -/
structure SameFrame (s t : State) : Prop where
  params : t.params = s.params
  backend : t.backend = s.backend
  frameRegs : t.frameRegs = s.frameRegs
  mapRegs : t.mapRegs = s.mapRegs
  pix : t.pix = s.pix
  frameCnt : t.frameCnt = s.frameCnt
  frameLen : t.frameLen = s.frameLen
  blank : t.seq.blank = s.seq.blank
  final : t.seq.final = s.seq.final
  relPend : t.seq.relPend = s.seq.relPend

namespace SameFrame
variable {s t : State}

theorem slotOps_eq (e : SameFrame s t) : slotOps t = slotOps s := by
  simp only [slotOps, e.frameRegs, e.mapRegs]

theorem slotSymbol_eq (e : SameFrame s t) (k : Nat) : slotSymbol t k = slotSymbol s k := by
  have hpx : framePixel t = framePixel s :=
    funext fun i => by simp only [framePixel, e.blank, readPixel_congr e.pix]
  simp only [slotSymbol, hpx, e.frameRegs]

theorem slotsFrom_eq (e : SameFrame s t) (k : Nat) : slotsFrom t k = slotsFrom s k := by
  have hcycles : slotCycles t = slotCycles s :=
    funext fun i => by simp only [slotCycles, e.params, e.frameRegs, e.slotSymbol_eq, e.slotOps_eq]
  simp only [slotsFrom, hcycles, e.frameLen]

end SameFrame

/-- Until its end a frame stays the same in quiet cycles. -/
theorem SeqEffect.sameFrame {s u : State} (x : SeqEffect s (noAccess s) u)
    (hp : s.seq.phase = .pro ∨ s.seq.phase = .slot) (hends : ¬ frameEnds s) : SameFrame s (nextCycle u) := by
  cases x with
  | idle hp' | release hp' | periodSet hp' => simp [hp'] at hp
  | frameEnded hends' => exact absurd hends' hends
  | running | holding | firstSlot | nextSlot => constructor <;> simp

namespace Inv
variable {s t : State}

/-- An acknowledged cycle of the prologue takes one operation off it, or starts slot 0 (R94, R96, R97). -/
theorem left_step_pro (hi : Inv s) (hp : s.seq.phase = .pro) (hq : hostQuiet s) (ha : (dsNow s).ack = true)
    (hstep : step s = .next t) :
    cyclesLeft t + 1 = cyclesLeft s ∧ txnsLeft t + s.seq.ops.length = txnsLeft s + (opsLeft s).length := by
  obtain ⟨hne, -⟩ := (opsShape_pro hp).1 hi.ops
  obtain ⟨hzero, -⟩ := (frameProgress_pro hp).1 hi.progress
  have hpos := List.length_pos_of_ne_nil hne
  have hleft : (opsLeft s).length = s.seq.ops.length - 1 := by rw [opsLeft_of_ack ha, List.length_tail]
  have hit := invIsKeptByEveryStep s t hi hstep
  obtain ⟨u, hu, rfl⟩ := quiet_step_effect hq hstep
  have e := hu.sameFrame (.inl hp) (by simp [frameEnds, slotEnds, hp])
  rw [cyclesLeft_pro hp, txnsLeft_pro hp]
  cases hu with
  | idle hp' | release hp' | periodSet hp' | holding hp' => simp [hp] at hp'
  | nextSlot hends => simp [slotEnds, hp] at hends
  | frameEnded hends => simp [frameEnds, slotEnds, hp] at hends
  | running =>
    have hp' : (Machine.nextCycle (driveOps s (noAccess s))).seq.phase = .pro := by simpa using hp
    have hops : (Machine.nextCycle (driveOps s (noAccess s))).seq.ops = opsLeft s := by simp
    rw [cyclesLeft_pro hp', txnsLeft_pro hp', e.slotsFrom_eq, e.frameLen, e.slotOps_eq, hops]
    omega
  | firstSlot _ ho =>
    obtain ⟨hcycles, htxns⟩ := hit.left_of_slot_start rfl rfl e.slotOps_eq.symm
    rw [hcycles, htxns, e.slotsFrom_eq, e.frameLen, e.slotOps_eq]
    rw [ho, List.length_nil] at hleft ⊢
    simp only [nextCycle_pulsesDone, loadSlot_pulsesDone, driveOps_pulsesDone, noAccess_pulsesDone, hzero,
      BitVec.toNat_ofNat, Nat.zero_mod, Nat.sub_zero]
    omega

/-- An acknowledged cycle of a slot takes one off it, starts the next one or ends the frame (R100, R103, R104). -/
theorem left_step_slot (hi : Inv s) (hp : s.seq.phase = .slot) (hq : hostQuiet s) (ha : (dsNow s).ack = true)
    (hstep : step s = .next t) :
    cyclesLeft t + 1 = cyclesLeft s ∧ txnsLeft t + s.seq.ops.length = txnsLeft s + (opsLeft s).length := by
  have hr : noReset s := by rw [noReset, hq]
  have hpos := hi.slotLeft_pos hp
  have hlast : slotEnds s → slotLeft s ≤ 1 := (slotEnds_iff_slotLeft hp ha).1
  have hit := invIsKeptByEveryStep s t hi hstep
  obtain ⟨hgoing, hending⟩ := slotHoldRule s t hi hr hp hstep
  rw [cyclesLeft_slot hp, txnsLeft_slot hp]
  by_cases hends : frameEnds s
  · obtain ⟨hslot, hdone⟩ := hends
    have hone := hlast hslot
    obtain ⟨-, -, -, hend⟩ := hending hslot
    have hidle := hend hdone
    rw [cyclesLeft_idle hidle, txnsLeft_idle hidle, slotsFrom_end hdone, Nat.sub_eq_zero_of_le hdone, hslot.2.1,
      List.length_nil]
    omega
  · obtain ⟨u, hu, rfl⟩ := quiet_step_effect hq hstep
    have e := hu.sameFrame (.inr hp) hends
    by_cases hslot : slotEnds s
    · have hone := hlast hslot
      have hmore : s.pulsesDone.toNat + 1 < s.frameLen.toNat := Nat.lt_of_not_le fun h => hends ⟨hslot, h⟩
      obtain ⟨hcount, -, hnext, -⟩ := hending hslot
      obtain ⟨hp', hhc', hops', -⟩ := hnext hmore
      obtain ⟨hcycles, htxns⟩ := hit.left_of_slot_start hp' hhc' (hops'.trans e.slotOps_eq.symm)
      rw [hcycles, htxns, hcount, e.slotsFrom_eq, e.frameLen, e.slotOps_eq, hslot.2.1, List.length_nil]
      omega
    · obtain ⟨hp', -, hsame, -⟩ := hgoing hslot
      have hleft := slotLeft_of_goes_on hi hr hp ha hslot hstep
      rw [cyclesLeft_slot hp', txnsLeft_slot hp', hsame, e.slotsFrom_eq, e.frameLen, e.slotOps_eq,
        slot_ops_of_goes_on hr hp hslot hstep]
      omega

/-- A cycle of a frame in calm takes one off the cycles left, and moves a transaction from those left to the record. -/
theorem left_step (hi : Inv s) (hb : s.backend = .transmitting) (hq : hostQuiet s) (ha : (dsNow s).ack = true)
    (hstep : step s = .next t) :
    cyclesLeft t + 1 = cyclesLeft s ∧ t.trace.length + txnsLeft t = s.trace.length + txnsLeft s := by
  have hphase := hi.transmittingIff.1 hb
  have hbusy : s.seq.phase ≠ .idle := by rcases hphase with hp | hp <;> simp [hp]
  have htrace := step_trace_length (by rw [noReset, hq]) hbusy hstep
  rcases hphase with hp | hp
  · obtain ⟨hcycles, htxns⟩ := hi.left_step_pro hp hq ha hstep
    exact ⟨hcycles, by omega⟩
  · obtain ⟨hcycles, htxns⟩ := hi.left_step_slot hp hq ha hstep
    exact ⟨hcycles, by omega⟩

theorem busy_of_transmitting (hi : Inv s) (hb : s.backend = .transmitting) : s.busy = true :=
  busy_of_phase (by rcases hi.transmittingIff.1 hb with hp | hp <;> simp [hp])

/-- A frame in calm that nobody has released runs for the cycles left of it, completes the transactions left of it, and
ends in ENABLED (R104, R109). -/
theorem frame_run {n : Nat} (hi : Inv s) (hb : s.backend = .transmitting) (hf : s.seq.final = false)
    (hr : s.seq.relPend = false) (hn : cyclesLeft s = n) (c : Calm n s) :
    (∀ m, m < n → ∃ t, core.run m s = .next t ∧ (t.backend = .transmitting ∧ t.busy = true)) ∧
    (∃ t, core.run n s = .next t ∧ t.backend = .enabled ∧ t.busy = false ∧ t.flags.getLsbD 8 = true ∧
      t.frameCnt = s.frameCnt + 1#32 ∧ t.trace.length = s.trace.length + txnsLeft s) := by
  induction n generalizing s with
  | zero => exact absurd (hi.cyclesLeft_pos hb) (by omega)
  | succ n ih =>
    have hnow := And.intro hb (hi.busy_of_transmitting hb)
    obtain ⟨t, hstep⟩ := step_completes hi.wireFree
    obtain ⟨hcycles, htxns⟩ := hi.left_step hb c.quiet c.ack hstep
    by_cases hends : frameEnds s
    · obtain ⟨hp, -, -, -, hb', hdone, hcnt⟩ := frameEndEffects s t hi c.noReset hends hstep
      have hrel : t.seq.relPend = false := by
        obtain ⟨u, hu, rfl⟩ := quiet_step_effect c.quiet hstep
        simpa [hu.of_frameEnds hends] using hr
      rw [cyclesLeft_idle hp] at hcycles
      rw [txnsLeft_idle hp, Nat.add_zero] at htxns
      obtain rfl : n = 0 := by omega
      exact ⟨run_succ_stays hstep hnow (by simp), t, (run_succ hstep 0).trans (run_zero t), by rw [hb', hf]; rfl,
        busy_eq_false_iff.2 ⟨hp, hrel⟩, hdone, hcnt, htxns⟩
    · obtain ⟨u, hu, rfl⟩ := quiet_step_effect c.quiet hstep
      have e := hu.sameFrame (hi.transmittingIff.1 hb) hends
      obtain ⟨hstays, t, hrun, hb', hbusy, hdone, hcnt, htrace⟩ :=
        ih (invIsKeptByEveryStep s _ hi hstep) (e.backend.trans hb) (e.final.trans hf) (e.relPend.trans hr)
          (by omega) (c.next hstep)
      exact ⟨run_succ_stays hstep hnow hstays, t, (run_succ hstep n).trans hrun, hb', hbusy, hdone,
        by rw [hcnt, e.frameCnt], htrace.trans htxns⟩

end Inv

/-! The first cycle of a frame: TRANSMIT is accepted (R95, R117). -/

/-- The state after an accepted TRANSMIT. -/
def frameAccepted (s : State) : State := nextCycle (acceptWrite (startFrame false false s s))

/-- TRANSMIT in an idle enabled block with its period set and a good configuration starts a frame (R95, R117). -/
theorem step_of_transmit {s : State} {rest : List HostIn}
    (hin : s.hostIn = { rst := false, acc := some (accessWord true 0x014#13 0x00000003#32) } :: rest)
    (hs : s.backend = .enabled) (hb : s.busy = false) (hv : s.seq.periodValid = true)
    (hc : cfgOk s.params s.frameRegs = true) :
    step s = .next (frameAccepted s) := by
  obtain ⟨hp, hrel⟩ := busy_eq_false_iff.1 hb
  have hnow := hostNow_of_hostIn hin
  have hword : decodeAccess (accessWord true 0x014#13 0x00000003#32) = .hostWrite Csr.cmd.offset 3#32 := by decide
  have hcmd : exec (.hostWrite Csr.cmd.offset 3#32) s = execTransmit s := by
    simp [exec, execHostWrite, aligned_offset, writeCsr, Csr.readOnly, cmdWrite]
  have hedge : hostEdge s = .next (acceptWrite (startFrame false false s s)) := by
    rw [hostEdge_of_fetchAccess (fetchAccess_of_acc (congrArg HostIn.acc hnow)), hword, hcmd]
    simp [execTransmit, whenIdleIn, hb, hs, hv, hc]
  exact step_of_edges (congrArg HostIn.rst hnow) hedge (seqEdge_of_idle hp hrel _)

/-- The cycles of the frame's slots, as the inputs before its start give them (R85, R91). -/
theorem slotCycles_frameAccepted (s : State) (k : Nat) :
    slotCycles (frameAccepted s) k =
      max (pulseHold s.params (toPulse s.frameRegs
        (frameSym (readPixel s) s.frameRegs.leds s.frameRegs.window k))) (slotOps s).length := rfl

section
variable {s : State} (hl : s.params.legal) (hc : cfgOk s.params s.frameRegs = true)
include hl hc

theorem frameLen_frameAccepted :
    (frameAccepted s).frameLen.toNat = frameLength s.frameRegs.leds s.frameRegs.window :=
  (BitVec.toNat_ofNat _ _).trans (Nat.mod_eq_of_lt (frameLength_lt hl hc))

/-- The three operations of the prologue and every slot are left (R96, R109). -/
theorem cyclesLeft_frameAccepted :
    cyclesLeft (frameAccepted s) =
      3 + ((List.range (frameLength s.frameRegs.leds s.frameRegs.window)).map (slotCycles (frameAccepted s))).sum := by
  rw [cyclesLeft_pro rfl, slotsFrom, frameLen_frameAccepted hl hc, Nat.sub_zero, ← List.range_eq_range']
  rfl

theorem txnsLeft_frameAccepted :
    txnsLeft (frameAccepted s) =
      3 + frameLength s.frameRegs.leds s.frameRegs.window * (slotOps s).length := by
  rw [txnsLeft_pro rfl, frameLen_frameAccepted hl hc]
  rfl

end

end Sys2Proof.Machine
end

section
/-! PROOFS of the statements about runs (R99, R100, R109). -/

namespace Sys2Proof.Machine

/-- Settles O58: at its first cycle `max(hold, operations)` cycles are left of a slot. -/
theorem slotLastsItsHoldOrItsOperations : Obligations.SlotLastsItsHoldOrItsOperations := by
  rintro s n hi hp hhc hops hquiet rfl hpins hacks
  have hleft : slotLeft s = max s.seq.hold (slotOps s).length := by rw [slotLeft, hhc, hops, Nat.sub_zero]
  obtain ⟨hstays, hend⟩ := slot_run hi hp hleft ⟨hquiet, hpins, hacks⟩
  refine ⟨fun m hm => ?_, hops ▸ hend⟩
  obtain ⟨t, hrun, hphase, hpulses, hcount⟩ := hstays m hm
  exact ⟨t, hrun, hphase, hpulses, by rw [hcount, hhc, Nat.zero_add]⟩

/-- Settles O59: TRANSMIT starts a frame that has the prologue and every slot left. -/
theorem frameTakesTheCyclesOfItsSlots : Obligations.FrameTakesTheCyclesOfItsSlots := by
  rintro s rest total hi hin hquiet hs hb hv hc htotal hpins hacks
  obtain ⟨-, hrel⟩ := busy_eq_false_iff.1 hb
  have hstep := step_of_transmit hin hs hb hv hc
  have hit := invIsKeptByEveryStep s _ hi hstep
  have hfour : 4 + total = 3 + total + 1 := by omega
  rw [hfour] at hpins hacks ⊢
  have hcalm : Calm (3 + total) (frameAccepted s) :=
    calm_of_tail (by simpa [frameAccepted, hin] using hquiet) rfl hpins hacks
  have hcycles : cyclesLeft (frameAccepted s) = 3 + total := by
    rw [cyclesLeft_frameAccepted hi.legalParams hc, funext (slotCycles_frameAccepted s), htotal]
  obtain ⟨hstays, t, hrun, hend, hidle, hdone, hcnt, htrace⟩ := hit.frame_run rfl rfl hrel hcycles hcalm
  refine ⟨fun m hm hlt => ?_, t, (run_succ hstep _).trans hrun, hend, hidle, hdone, hcnt, ?_⟩
  · obtain ⟨u, hu, hframe⟩ := hstays (m - 1) (by omega)
    rw [← Nat.sub_add_cancel hm, run_succ hstep]
    exact ⟨u, hu, hframe⟩
  · rw [htrace, txnsLeft_frameAccepted hi.legalParams hc, Nat.add_assoc]
    rfl

end Sys2Proof.Machine
end

section
/-! SUPPORT for the proofs. Who writes STATE: the host while the block is not BUSY, and of the sequencer a pending release
and a frame's end (R104, R106, R113 to R121). -/

namespace Sys2Proof.Machine

/-- An access is never a command by itself: a command runs as a write of its word to CMD (R69, R71). -/
theorem fetchAccess_ne_cmd {s : State} {i : Instr} (hf : fetchAccess s = some i) : i.format ≠ .cmd := by
  unfold fetchAccess at hf
  split at hf
  · cases hf
    unfold decodeAccess
    split <;> simp [Instr.format]
  · cases hf

/-- An access with the effect of a command is the write of the command's word. -/
theorem hostWrites_of_cmd {s : State} {i c : Instr} {w : Word} (hf : fetchAccess s = some i) (hc : c.format = .cmd)
    (hi : i = c ∨ i = .hostWrite 0x014#13 w) : hostWrites s 0x014#13 w := by
  rcases hi with rfl | rfl
  · exact absurd hc (fetchAccess_ne_cmd hf)
  · exact hf

/-- A release starts the blanking frame or disables at once (R119). -/
theorem releaseAction_backend (s h : State) :
    (releaseAction s h).backend = .transmitting ∨ (releaseAction s h).backend = .disabled := by
  unfold releaseAction
  split
  · exact .inl rfl
  · exact .inr rfl

/-- The changes of STATE a host access makes (R121). -/
theorem HostEdge.backend_changes {s h : State} (e : HostEdge s h) (hi : Inv s) (hne : h.backend ≠ s.backend) :
    (s.backend = .uninitialized ∧ h.backend = .enabled ∧ hostWrites s 0x014#13 1#32 ∧ s.mapRegs.ok = true) ∨
    (s.backend = .enabled ∧ h.backend = .transmitting ∧ (hostWrites s 0x014#13 3#32 ∨ hostWrites s 0x014#13 5#32)) ∨
    (s.backend = .enabled ∧ h.backend = .disabled ∧ (hostWrites s 0x014#13 4#32 ∨ hostWrites s 0x014#13 5#32)) := by
  cases e with
  | quiet => exact absurd rfl hne
  | access i _ hf he =>
    cases he with
    | store r d =>
      obtain ⟨-, hbackend, -⟩ := storeCsr_keeps r d s
      exact absurd hbackend hne
    | opened hcmd _ hs hm => exact .inl ⟨hs, rfl, hostWrites_of_cmd hf rfl hcmd, hm⟩
    | transmitted hcmd _ hs => exact .inr (.inl ⟨hs, rfl, .inl (hostWrites_of_cmd hf rfl hcmd)⟩)
    | closed hcmd _ hs => exact .inr (.inr ⟨hs, rfl, .inl (hostWrites_of_cmd hf rfl hcmd)⟩)
    | released hcmd hs hb =>
      have henabled := hs.resolve_right (hi.not_transmitting_of_idle (busy_eq_false_iff.1 hb).1)
      have hword := hostWrites_of_cmd hf rfl hcmd
      rcases releaseAction_backend s s with hto | hto
      · exact .inr (.inl ⟨henabled, hto, .inr hword⟩)
      · exact .inr (.inr ⟨henabled, hto, .inr hword⟩)
    | _ => exact absurd rfl hne

/-- The changes of STATE the sequencer makes: a pending release runs, or the frame ends (R104, R106). -/
theorem SeqEffect.backend_changes {s h u : State} (x : SeqEffect s h u) (hne : u.backend ≠ h.backend) :
    (s.seq.phase = .idle ∧ s.seq.relPend = true ∧ (u.backend = .transmitting ∨ u.backend = .disabled)) ∨
    (frameEnds s ∧ u.backend = if s.seq.final then .disabled else .enabled) := by
  cases x with
  | release hp hr => exact .inl ⟨hp, hr, releaseAction_backend _ _⟩
  | frameEnded he => exact .inr ⟨he, rfl⟩
  | _ => simp at hne

end Sys2Proof.Machine
end

section
/-! SUPPORT for the proofs. DISABLED: the block is not BUSY, and no access leaves it (R122). -/

namespace Sys2Proof.Machine

theorem Inv.not_busy_of_disabled {s : State} (hi : Inv s) (hd : s.backend = .disabled) : s.busy = false := by
  have htrans := hi.transmittingIff
  have hsetp := hi.setpEnabled
  refine busy_eq_false_iff.2 ⟨?_, hi.closedIdle (.inr hd)⟩
  cases hp : s.seq.phase <;> simp_all

theorem HostEdge.disabled_stays {s h : State} (e : HostEdge s h) (hd : s.backend = .disabled)
    (hb : s.busy = false) : h.backend = .disabled ∧ h.seq = s.seq := by
  cases e with
  | quiet => exact ⟨hd, rfl⟩
  | access i _ _ he =>
    cases he with
    | store r d =>
      obtain ⟨-, hbackend, -, -, -, -, -, -, -, hseq, -⟩ := storeCsr_keeps r d s
      exact ⟨hbackend.trans hd, hseq⟩
    | opened _ _ hs | periodStarted _ hs | transmitted _ _ hs | closed _ _ hs | released _ hs => simp [hd] at hs
    | releasePended _ hb' => simp [hb] at hb'
    | _ => exact ⟨hd, rfl⟩

end Sys2Proof.Machine
end

section
/-! SUPPORT for the proofs. The commands: the steps they share (R111), the two checks in naturals (R113, R116), and each
command's meaning (R112 to R120). -/

namespace Sys2Proof.Machine

/-! Steps 4 and 5 of R111. -/

theorem whenIdleIn_busy (legal : Backend) {s : State} (hb : s.busy = true) (effect : State) :
    whenIdleIn legal s effect = rejectWrite .cmdBusy s := by
  simp [whenIdleIn, hb]

theorem whenIdleIn_wrongState {legal : Backend} {s : State} (hb : s.busy = false) (hs : s.backend ≠ legal)
    (effect : State) : whenIdleIn legal s effect = rejectWrite .stateErr s := by
  simp [whenIdleIn, hb, hs]

theorem whenIdleIn_legal {legal : Backend} {s : State} (hb : s.busy = false) (hs : s.backend = legal)
    (effect : State) : whenIdleIn legal s effect = effect := by
  simp [whenIdleIn, hb, hs]

/-! The checks. -/

theorem periodOff_eq (m : MapRegs) : m.periodOff = m.offs.toNat % 256 := by
  simp [MapRegs.periodOff]

theorem dutyOff_eq (m : MapRegs) : m.dutyOff = m.offs.toNat / 256 % 256 := by
  simp [MapRegs.dutyOff, Nat.shiftRight_eq_div_pow]

theorem ctrlOff_eq (m : MapRegs) : m.ctrlOff = m.offs.toNat / 65536 % 256 := by
  simp [MapRegs.ctrlOff, Nat.shiftRight_eq_div_pow]

theorem cfgOk_iff {p : Params} {f : FrameRegs} :
    cfgOk p f = true ↔ 1 ≤ f.windowBits.toNat ∧ f.ledCount.toNat ≤ p.maxLeds :=
  decide_eq_true_iff

theorem cfgOk_eq_false_iff {p : Params} {f : FrameRegs} :
    cfgOk p f = false ↔ f.windowBits.toNat = 0 ∨ p.maxLeds < f.ledCount.toNat := by
  rw [← Bool.not_eq_true, cfgOk_iff]
  omega

/-! The meaning of each command. -/

theorem exec_cmdNop (s : State) : exec .cmdNop s = .next (acceptWrite s) := rfl

theorem exec_cmdOpen (s : State) : exec .cmdOpen s = .next (whenIdleIn .uninitialized s
    (if s.mapRegs.ok then acceptWrite { s with backend := .enabled } else rejectWrite .mapFail s)) := rfl

theorem exec_cmdSetPeriod (s : State) : exec .cmdSetPeriod s = .next (whenIdleIn .enabled s
    (acceptWrite { s with seq := { s.seq with ops := [.wrPeriod], phase := .setp } })) := rfl

theorem exec_cmdTransmit (s : State) : exec .cmdTransmit s = .next (whenIdleIn .enabled s
    (if !s.seq.periodValid then rejectWrite .periodErr s
     else if !cfgOk s.params s.frameRegs then rejectWrite .cfgErr s
     else acceptWrite (startFrame false false s s))) := rfl

theorem exec_cmdClose (s : State) : exec .cmdClose s = .next
    (if s.busy then rejectWrite .cmdBusy s
     else if s.backend = .disabled then acceptWrite s
     else if s.backend = .enabled then acceptWrite { s with backend := .disabled }
     else rejectWrite .stateErr s) := rfl

theorem exec_cmdClose_disabled {s : State} (hb : s.busy = false) (hs : s.backend = .disabled) :
    exec .cmdClose s = .next (acceptWrite s) := by
  rw [exec_cmdClose, if_neg (by simp [hb]), if_pos hs]

theorem exec_cmdReserved (w : Word) (s : State) : exec (.cmdReserved w) s = .next (rejectWrite .illCmd s) := rfl

theorem exec_cmdRelease_uninitialized {s : State} (hs : s.backend = .uninitialized) :
    exec .cmdRelease s = .next (rejectWrite .stateErr s) := by
  simp [exec, execRelease, hs]

theorem exec_cmdRelease_disabled {s : State} (hs : s.backend = .disabled) :
    exec .cmdRelease s = .next (acceptWrite s) := by
  simp [exec, execRelease, hs]

/-- RELEASE between OPEN and DISABLED (R120). -/
theorem exec_cmdRelease_opened {s : State} (hs : s.backend = .enabled ∨ s.backend = .transmitting) :
    exec .cmdRelease s = .next
      (if s.busy then
        if s.seq.relPend || s.seq.final then acceptWrite s
        else acceptWrite { s with seq := { s.seq with relPend := true } }
       else acceptWrite (releaseAction s s)) := by
  rcases hs with hs | hs <;> simp [exec, execRelease, hs]

/-- A second RELEASE, or one in a blanking frame, is accepted and does nothing (R120). -/
theorem exec_cmdRelease_again {s : State} (hs : s.backend ≠ .uninitialized) (hb : s.busy = true)
    (hpend : s.seq.relPend = true ∨ s.seq.final = true) : exec .cmdRelease s = .next (acceptWrite s) := by
  have opened (h : s.backend = .enabled ∨ s.backend = .transmitting) : exec .cmdRelease s = .next (acceptWrite s) := by
    rw [exec_cmdRelease_opened h, if_pos hb, if_pos (Bool.or_eq_true_iff.2 hpend)]
  cases hbackend : s.backend with
  | uninitialized => exact absurd hbackend hs
  | disabled => exact exec_cmdRelease_disabled hbackend
  | enabled => exact opened (.inl hbackend)
  | transmitting => exact opened (.inr hbackend)

theorem releaseAction_blanks {s : State} (hv : s.seq.periodValid = true) (hc : cfgOk s.params s.frameRegs = true)
    (h : State) : releaseAction s h = startFrame true true s h := by
  simp [releaseAction, hv, hc]

theorem releaseAction_disables {s : State} (hbad : s.seq.periodValid = false ∨ cfgOk s.params s.frameRegs = false)
    (h : State) : releaseAction s h = { h with backend := .disabled } := by
  rcases hbad with hbad | hbad <;> simp [releaseAction, hbad]

end Sys2Proof.Machine
end

section
/-! PROOFS of the statements about STATE (R121, R122). -/

namespace Sys2Proof.Machine

/-- Settles O48: while BUSY only the sequencer writes STATE, else only the host does. -/
theorem stateChangesAreTheTable : Obligations.StateChangesAreTheTable := by
  intro s t hi hstep hne
  rcases step_cases hstep with ⟨hrst, rfl⟩ | ⟨hr, h, u, -, he, hu, rfl⟩
  · exact .inl ⟨hrst, rfl⟩
  refine .inr ⟨hr, ?_⟩
  cases hb : s.busy with
  | false =>
    obtain rfl := hu.eq_of_not_busy hb
    rcases he.backend_changes hi hne with hopen | ⟨hs, ht, hword⟩ | ⟨hs, ht, hword⟩
    · exact .inl hopen
    · exact .inr (.inl ⟨hs, ht, hword.imp_right .inl⟩)
    · exact .inr (.inr (.inl ⟨hs, ht, hword.imp_right .inl⟩))
  | true =>
    obtain ⟨hkept, -⟩ := he.seq_of_busy hb
    rcases hu.backend_changes (hkept ▸ hne) with ⟨hp, hrel, ht⟩ | ⟨hends, ht⟩
    · have hs := hi.enabled_of_relPend hp hrel
      rcases ht with ht | ht
      · exact .inr (.inl ⟨hs, ht, .inr (.inr hrel)⟩)
      · exact .inr (.inr (.inl ⟨hs, ht, .inr (.inr hrel)⟩))
    · have hs := hi.transmittingIff.2 (.inr hends.1.1)
      cases hf : s.seq.final with
      | false => exact .inr (.inr (.inr (.inl ⟨hs, by simpa [hf] using ht, hends, rfl⟩)))
      | true => exact .inr (.inr (.inr (.inr ⟨hs, by simpa [hf] using ht, hends, rfl⟩)))

/-- Settles O49: DISABLED is not BUSY, so the sequencer does nothing, and no access leaves it. -/
theorem disabledIsTerminal : Obligations.DisabledIsTerminal := by
  intro s hi hd
  have hb := hi.not_busy_of_disabled hd
  refine ⟨fun t hr hstep => ?_, ?_, ?_, fun off data ha hlo hhi => exec_hostWrite_pixel data ha hlo hhi hb,
    fun hrst => ⟨_, by simp [step, hrst]; rfl, rfl⟩⟩
  · obtain ⟨h, u, -, he, hu, rfl⟩ := step_edges hr hstep
    obtain rfl := hu.eq_of_not_busy hb
    obtain ⟨hstays, hseq⟩ := he.disabled_stays hd hb
    obtain ⟨htrace, -, -⟩ := he.keeps_records
    exact ⟨hstays, dsPort_eq_none (.inl (busy_eq_false_iff.1 hb).1), htrace, hseq,
      by simpa [State.busy, hseq] using hb⟩
  · rintro i (rfl | rfl | rfl)
    · exact exec_cmdNop s
    · exact exec_cmdClose_disabled hb hd
    · exact exec_cmdRelease_disabled hd
  · rintro i (rfl | rfl | rfl)
    · rw [exec_cmdOpen, whenIdleIn_wrongState hb (by simp [hd])]
      rfl
    · rw [exec_cmdSetPeriod, whenIdleIn_wrongState hb (by simp [hd])]
      rfl
    · rw [exec_cmdTransmit, whenIdleIn_wrongState hb (by simp [hd])]
      rfl

end Sys2Proof.Machine
end

section
/-! PROOFS of the statements about the commands (R111 to R120). -/

namespace Sys2Proof.Machine

/-- Settles O11: `map_ok` is the conjunction of R113 on the offsets as numbers. -/
theorem openChecksTheMap : Obligations.OpenChecksTheMap := by
  rintro s base size po du ct rfl rfl hpo hdu hct
  rw [← periodOff_eq] at hpo
  rw [← dutyOff_eq] at hdu
  rw [← ctrlOff_eq] at hct
  subst hpo hdu hct
  have hmap := mapOk_iff (m := s.mapRegs)
  simp only [offOk_iff, and_assoc] at hmap
  simp only [and_assoc, ← hmap]
  refine ⟨fun hb => ?_, fun hb hs => ?_, fun hb hs hok => ?_, fun hb hs hbad => ?_⟩
  · rw [exec_cmdOpen, whenIdleIn_busy _ hb]
    rfl
  · rw [exec_cmdOpen, whenIdleIn_wrongState hb hs]
    rfl
  · rw [exec_cmdOpen, whenIdleIn_legal hb hs, if_pos hok]
    rfl
  · rw [exec_cmdOpen, whenIdleIn_legal hb hs, if_neg hbad]
    rfl

/-- Settles O13: past the state checks PERIOD_VALID is looked at before the configuration. -/
theorem transmitStartsTheFrame : Obligations.TransmitStartsTheFrame := by
  rintro s leds w rfl rfl
  refine ⟨fun hb hs hv hw hl => ?_, fun hb => ?_, fun hb hs => ?_, fun hb hs hv => ?_, fun hb hs hv hbad => ?_⟩
  · rw [exec_cmdTransmit, whenIdleIn_legal hb hs, hv, cfgOk_iff.2 ⟨hw, hl⟩]
    rfl
  · rw [exec_cmdTransmit, whenIdleIn_busy _ hb]
    rfl
  · rw [exec_cmdTransmit, whenIdleIn_wrongState hb hs]
    rfl
  · rw [exec_cmdTransmit, whenIdleIn_legal hb hs, hv]
    rfl
  · rw [exec_cmdTransmit, whenIdleIn_legal hb hs, hv, cfgOk_eq_false_iff.2 hbad]
    rfl

/-- Settles O15: after OPEN, BUSY decides between a pending release and the action itself. -/
theorem releaseBlanksThenDisables : Obligations.ReleaseBlanksThenDisables := by
  rintro s leds w rfl rfl
  refine ⟨exec_cmdRelease_uninitialized, exec_cmdRelease_disabled, exec_cmdRelease_again, fun hs hb hrel hf => ?_,
    fun hs hb hv hw hl => ?_, fun hs hb hbad => ?_⟩
  · rw [exec_cmdRelease_opened hs, if_pos hb, hrel, hf]
    rfl
  · rw [exec_cmdRelease_opened (.inl hs), hb, releaseAction_blanks hv (cfgOk_iff.2 ⟨hw, hl⟩)]
    rfl
  · rw [exec_cmdRelease_opened (.inl hs), hb, releaseAction_disables (hbad.imp_right cfgOk_eq_false_iff.2)]
    rfl

/-- Settles O10: NOP is an accepted write and no more. -/
theorem nopIsAcceptedInEveryState : Obligations.NopIsAcceptedInEveryState := exec_cmdNop

/-- Settles O12: SET_PERIOD needs an idle block in ENABLED and checks nothing else. -/
theorem setPeriodStartsThePeriodWrite : Obligations.SetPeriodStartsThePeriodWrite := by
  refine fun s => ⟨fun hb hs => ?_, fun hb => ?_, fun hb hs => ?_⟩
  · rw [exec_cmdSetPeriod, whenIdleIn_legal hb hs]
    rfl
  · rw [exec_cmdSetPeriod, whenIdleIn_busy _ hb]
    rfl
  · rw [exec_cmdSetPeriod, whenIdleIn_wrongState hb hs]
    rfl

/-- Settles O14: CLOSE looks at BUSY first, then at STATE. -/
theorem closeDisables : Obligations.CloseDisables := by
  refine fun s => ⟨fun hb hs => ?_, exec_cmdClose_disabled, fun hb => ?_, fun hb hs => ?_⟩
  · rw [exec_cmdClose, if_neg (by simp [hb]), if_neg (by simp [hs]), if_pos hs]
    rfl
  · rw [exec_cmdClose, if_pos hb]
    rfl
  · rw [exec_cmdClose, if_neg (by simp [hb]), if_neg (by simp [hs]), if_neg (by simp [hs])]
    rfl

/-- Settles O16: a reserved command is a write rejected with ILL_CMD, whatever its word and the state. -/
theorem reservedCommandIsRejected : Obligations.ReservedCommandIsRejected := exec_cmdReserved

end Sys2Proof.Machine
end

section
/-! SUPPORT for the proofs. A read's answers, a write at a CSR's own offset and in the pixel window, and the two groups with
their locks (R125 to R132). -/

namespace Sys2Proof.Machine

/-! Offsets that reach nothing. -/

theorem aligned_eq_false {off : Offset} (ha : off.toNat % 4 ≠ 0) : aligned off = false := by
  simp [← Bool.not_eq_true, aligned_iff, ha]

theorem exec_hostRead_misaligned {off : Offset} (ha : off.toNat % 4 ≠ 0) (s : State) :
    exec (.hostRead off) s = .next (rejectRead .addrErr s) := by
  simp [exec, execHostRead, aligned_eq_false ha]

theorem exec_hostWrite_misaligned {off : Offset} (data : Word) (ha : off.toNat % 4 ≠ 0) (s : State) :
    exec (.hostWrite off data) s = .next (rejectWrite .addrErr s) := by
  simp [exec, execHostWrite, aligned_eq_false ha]

section
variable {s : State} {off : Offset} (hcsr : ∀ r : Csr, off ≠ r.offset)
  (hpix : ¬ (0x1000 ≤ off.toNat ∧ off.toNat < 0x1000 + 4 * s.params.maxLeds))
include hcsr hpix

theorem exec_hostRead_unmapped : exec (.hostRead off) s = .next (rejectRead .addrErr s) := by
  simp [exec, execHostRead, targetOf_unmapped hcsr hpix]

/-- Misaligned or not, a write outside the CSRs and the pixel window is rejected with ADDR_ERR (R126 steps 1 and 2). -/
theorem exec_hostWrite_unmapped (data : Word) : exec (.hostWrite off data) s = .next (rejectWrite .addrErr s) := by
  simp [exec, execHostWrite, targetOf_unmapped hcsr hpix]

end

/-! The pixel window. -/

section
variable {s : State} {off : Offset} (ha : off.toNat % 4 = 0) (hlo : 0x1000 ≤ off.toNat)
  (hhi : off.toNat < 0x1000 + 4 * s.params.maxLeds)
include ha hlo hhi

theorem exec_hostRead_pixel :
    exec (.hostRead off) s = .next (acceptRead ((readPixel s ((off.toNat - 0x1000) / 4)).zeroExtend 32) s) := by
  simp [exec, execHostRead, (aligned_iff off).2 ha, targetOf_pixel hlo hhi]

theorem exec_hostWrite_pixel_busy (data : Word) (hb : s.busy = true) :
    exec (.hostWrite off data) s = .next (rejectWrite .busyWerr s) := by
  simp [exec, execHostWrite, (aligned_iff off).2 ha, targetOf_pixel hlo hhi, writePix, hb]

end

/-- An entry below its res0 byte (R41). -/
theorem zero_append_pixel (p : Pixel) : 0x00#8 ++ p = p.zeroExtend 32 := by
  simp [BitVec.setWidth_eq_append (show 24 ≤ 32 by decide)]

/-- The 24 bits a pixel write stores are what its mask lets through (R132). -/
theorem zero_append_stored (data : Word) : 0x00#8 ++ data.extractLsb' 0 24 = data &&& 0x00FFFFFF#32 := by
  apply BitVec.eq_of_toNat_eq
  rw [BitVec.toNat_append, BitVec.toNat_and]
  simpa using (Nat.and_two_pow_sub_one_eq_mod data.toNat 24).symm

/-! A write at a CSR's offset. -/

theorem exec_hostWrite_offset (r : Csr) (data : Word) (s : State) :
    exec (.hostWrite r.offset data) s = writeCsr r data s := by
  simp [exec, execHostWrite, aligned_offset]

theorem exec_hostWrite_readOnly {r : Csr} (hr : r.readOnly = true) (data : Word) (s : State) :
    exec (.hostWrite r.offset data) s = .next (rejectWrite .addrErr s) := by
  simp [exec_hostWrite_offset, writeCsr, hr]

/-- A register with a store is written through its group's lock (R126 steps 5 to 7). -/
theorem exec_hostWrite_stored {r : Csr} (hr : r = .irqEn ∨ r.inMapGroup = true ∨ r.inFrameGroup = true) (data : Word)
    (s : State) : exec (.hostWrite r.offset data) s = .next (writeReg r data s) := by
  rw [exec_hostWrite_offset]
  cases r with
  | id | param | status | cmd | lastErr | frameCnt | pulsesDone | frameLen | rbDuty =>
    simp [Csr.inMapGroup, Csr.inFrameGroup] at hr
  | _ => rfl

theorem inMapGroup_iff {r : Csr} :
    r.inMapGroup = true ↔ r = .pwmBase ∨ r = .pwmSize ∨ r = .pwmOffs ∨ r = .pwmFeat ∨ r = .pwmEnMask := by
  cases r <;> simp [Csr.inMapGroup]

theorem inFrameGroup_iff {r : Csr} :
    r.inFrameGroup = true ↔ r = .ctrl ∨ r = .ledCount ∨ r = .windowBits ∨ r = .t0h ∨ r = .t0l ∨ r = .t1h ∨ r = .t1l ∨
      r = .resetLow ∨ r = .periodNs := by
  cases r <;> simp [Csr.inFrameGroup]

theorem not_inFrameGroup_of_inMapGroup {r : Csr} (hm : r.inMapGroup = true) : r.inFrameGroup = false := by
  rcases inMapGroup_iff.1 hm with rfl | rfl | rfl | rfl | rfl <;> rfl

theorem writeReg_mapLocked {r : Csr} (hm : r.inMapGroup = true) {s : State} (hs : s.backend ≠ .uninitialized)
    (data : Word) : writeReg r data s = rejectWrite .stateErr s := by
  simp [writeReg, hm, hs]

theorem writeReg_frameLocked {r : Csr} (hf : r.inFrameGroup = true) {s : State} (hb : s.busy = true) (data : Word) :
    writeReg r data s = rejectWrite .busyWerr s := by
  have hm : r.inMapGroup = false :=
    Bool.eq_false_iff.2 fun hm => by simp [not_inFrameGroup_of_inMapGroup hm] at hf
  simp [writeReg, hm, hf, hb]

theorem writeReg_unlocked {r : Csr} {s : State} (hm : r.inMapGroup = true → s.backend = .uninitialized)
    (hf : r.inFrameGroup = true → s.busy = false) (data : Word) :
    writeReg r data s = acceptWrite (storeCsr r data s) := by
  rw [writeReg, if_neg (by simpa using hm), if_neg (by simpa using hf)]

/-- A write that no lock closes is the store (R130 to R132). -/
theorem exec_hostWrite_store {r : Csr} {s : State}
    (h : r = .irqEn ∨ (r.inMapGroup = true ∧ s.backend = .uninitialized) ∨ (r.inFrameGroup = true ∧ s.busy = false))
    (data : Word) : exec (.hostWrite r.offset data) s = .next (acceptWrite (storeCsr r data s)) := by
  rw [exec_hostWrite_stored (h.imp_right (Or.imp And.left And.left))]
  rcases h with rfl | ⟨hm, hs⟩ | ⟨hf, hb⟩
  · rw [writeReg_unlocked (by simp [Csr.inMapGroup]) (by simp [Csr.inFrameGroup])]
  · rw [writeReg_unlocked (fun _ => hs) (by simp [not_inFrameGroup_of_inMapGroup hm])]
  · rw [writeReg_unlocked (fun hm => by simp [not_inFrameGroup_of_inMapGroup hm] at hf) (fun _ => hb)]

theorem readCsr_acceptWrite (s : State) (r : Csr) : readCsr (acceptWrite s) r = readCsr s r := by
  cases r <;> rfl

end Sys2Proof.Machine
end

section
/-! SUPPORT for the proofs. What a command can write at all (R111 to R120). -/

namespace Sys2Proof.Machine

/-- The two ways a command can end: rejected with one error, or accepted after it has written STATE, the frame's counters
and the sequencer's control fields. -/
inductive CmdEffect (s : State) : State → Prop where
  | rejected (e : ErrCode) : CmdEffect s (rejectWrite e s)
  | accepted (b : Backend) (n len : Word) (p : Phase) (blank final : Bool) (ops : List Op) (rel : Bool) :
      CmdEffect s (acceptWrite { s with
        backend := b, pulsesDone := n, frameLen := len
        seq := { s.seq with phase := p, blank := blank, final := final, ops := ops, relPend := rel } })

theorem CmdEffect.startFrame {s : State} (blank final : Bool) :
    CmdEffect s (acceptWrite (startFrame blank final s s)) := .accepted ..

theorem CmdEffect.whenIdleIn {s effect : State} (legal : Backend) (h : CmdEffect s effect) :
    CmdEffect s (whenIdleIn legal s effect) := by
  unfold Machine.whenIdleIn
  split
  · exact .rejected _
  · split
    · exact h
    · exact .rejected _

theorem CmdEffect.releaseAction {s : State} : CmdEffect s (acceptWrite (releaseAction s s)) := by
  unfold Machine.releaseAction
  split
  · exact .startFrame true true
  · exact .accepted ..

theorem exec_cmd_effect {i : Instr} {s t : State} (hi : i.format = .cmd) (h : exec i s = .next t) : CmdEffect s t := by
  cases i with
  | cmdNop => cases h; exact .accepted ..
  | cmdOpen =>
    cases h
    refine .whenIdleIn _ ?_
    split
    · exact .accepted ..
    · exact .rejected _
  | cmdSetPeriod => cases h; exact .whenIdleIn _ (.accepted ..)
  | cmdTransmit =>
    cases h
    refine .whenIdleIn _ ?_
    split
    · exact .rejected _
    · split
      · exact .rejected _
      · exact .startFrame false false
  | cmdClose =>
    cases h
    split
    · exact .rejected _
    · split
      · exact .accepted ..
      · split
        · exact .accepted ..
        · exact .rejected _
  | cmdRelease =>
    cases hs : s.backend with
    | uninitialized => rw [exec_cmdRelease_uninitialized hs] at h; cases h; exact .rejected _
    | disabled => rw [exec_cmdRelease_disabled hs] at h; cases h; exact .accepted ..
    | enabled | transmitting =>
      rw [exec_cmdRelease_opened (by simp [hs])] at h
      cases h
      split
      · split <;> exact .accepted ..
      · exact .releaseAction
  | cmdReserved w => cases h; exact .rejected _
  | _ => simp [Instr.format] at hi

/-- The CSRs no command writes (R111 to R120). -/
theorem CmdEffect.readCsr_eq {s t : State} (x : CmdEffect s t) {r : Csr} (hstatus : r ≠ .status) (herr : r ≠ .lastErr)
    (hlen : r ≠ .frameLen) (hdone : r ≠ .pulsesDone) : readCsr t r = readCsr s r := by
  cases r with
  | status => exact absurd rfl hstatus
  | lastErr => exact absurd rfl herr
  | frameLen => exact absurd rfl hlen
  | pulsesDone => exact absurd rfl hdone
  | _ => cases x <;> rfl

end Sys2Proof.Machine
end

section
/-! PROOFS of the statements about host accesses and the frame of the commands (R111, R124 to R132). -/

namespace Sys2Proof.Machine

/-- Settles O17: a command ends in one of two ways, and neither writes any of these. -/
theorem commandsLeaveTheRest : Obligations.CommandsLeaveTheRest := by
  intro i s t hi h
  have x := exec_cmd_effect hi h
  refine ⟨fun r => x.readCsr_eq, ?_⟩
  cases x with
  | rejected e => exact ⟨rfl, rfl, rfl, readByte_congr rfl, by simp, rfl, rfl, rfl, rfl, rfl, rfl, rfl⟩
  | accepted =>
    exact ⟨rfl, rfl, rfl, readByte_congr rfl, fun _ => ⟨rfl, rfl⟩, rfl, rfl, rfl, rfl, rfl, rfl, rfl⟩

/-- Settles O18: a read is answered by what its offset reaches, CMD's value being 0. -/
theorem hostReadAnswersAndChangesNothing : Obligations.HostReadAnswersAndChangesNothing := by
  refine fun s off => ⟨fun ha => exec_hostRead_misaligned ha s, ?_, ?_, fun ha hlo hhi => ?_,
    fun _ hcsr hpix => exec_hostRead_unmapped hcsr hpix⟩
  · rintro r rfl
    exact exec_hostRead_offset r s
  · rintro rfl
    exact exec_hostRead_offset .cmd s
  · rw [zero_append_pixel]
    exact exec_hostRead_pixel ha hlo hhi

/-- Settles O21: past the locks the write is the store of `data & mask`, and a pixel entry takes the low 24 bits. -/
theorem hostWriteStoresThroughTheMask : Obligations.HostWriteStoresThroughTheMask := by
  refine ⟨fun s r data h => ?_, fun s off data ha hlo hhi hb => ?_⟩
  · have hgroup : r.inFrameGroup = true ∨ r.inMapGroup = true ∨ r = .irqEn := by tauto
    obtain ⟨hparams, hbackend, hflags, herr, -, -, -, -, hpix, hseq, htrace, -⟩ := storeCsr_keeps r data s
    refine ⟨_, exec_hostWrite_store h data, rfl, ?_, fun r' hne => ?_, readByte_congr hpix, hbackend, hflags, herr, hseq,
      htrace, hparams⟩
    · rw [readCsr_acceptWrite, readCsr_storeCsr_same hgroup]
      cases r <;> rfl
    · rw [readCsr_acceptWrite, readCsr_storeCsr_other hne]
  · refine ⟨_, exec_hostWrite_pixel data ha hlo hhi hb, rfl, ?_⟩
    rw [readPixel_congr (acceptWrite_pix _), readPixel_writePixel, if_pos rfl, zero_append_stored]

/-- Settles O23: each of the three kinds of offset is rejected before any lock is looked at. -/
theorem hostWriteBoundsAreChecked : Obligations.HostWriteBoundsAreChecked := by
  refine fun s off data => ⟨fun ha => exec_hostWrite_misaligned data ha s,
    fun hcsr hpix => exec_hostWrite_unmapped hcsr hpix data, ?_⟩
  have readOnly : ∀ r : Csr, r.readOnly = true → exec (.hostWrite r.offset data) s = .next (rejectWrite .addrErr s) :=
    fun r hr => exec_hostWrite_readOnly hr data s
  rintro (rfl | rfl | rfl | rfl | rfl | rfl | rfl)
  · exact readOnly .id rfl
  · exact readOnly .param rfl
  · exact readOnly .lastErr rfl
  · exact readOnly .frameCnt rfl
  · exact readOnly .pulsesDone rfl
  · exact readOnly .frameLen rfl
  · exact readOnly .rbDuty rfl

/-- Settles O24: STATE decides for the map group, BUSY for the frame group and the pixel window. -/
theorem writeLocksHold : Obligations.WriteLocksHold := by
  refine fun s data => ⟨fun r hr => ?_, fun r hr => ?_, fun off ha hlo hhi => ⟨?_, fun hb => ?_⟩⟩
  · rw [← inMapGroup_iff] at hr
    refine ⟨fun hs => ?_, fun hs => ⟨_, exec_hostWrite_store (.inr (.inl ⟨hr, hs⟩)) data, rfl⟩⟩
    rw [exec_hostWrite_stored (.inr (.inl hr)), writeReg_mapLocked hr hs]
    rfl
  · rw [← inFrameGroup_iff] at hr
    refine ⟨fun hb => ?_, fun hb => ⟨_, exec_hostWrite_store (.inr (.inr ⟨hr, hb⟩)) data, rfl⟩⟩
    rw [exec_hostWrite_stored (.inr (.inr hr)), writeReg_frameLocked hr hb]
    rfl
  · exact exec_hostWrite_pixel_busy ha hlo hhi data
  · exact ⟨_, exec_hostWrite_pixel data ha hlo hhi hb, rfl⟩

/-- Settles O26: of the effects of a host edge the rejection alone answers ERROR, and it raises one error. -/
theorem rejectedAccessOnlyRaises : Obligations.RejectedAccessOnlyRaises := by
  intro i s t hi h
  cases exec_effect hi h with
  | reject e v hv => exact .inr ⟨e, v, rfl, fun ⟨off, hoff⟩ => hv off hoff⟩
  | answer v => exact .inl ⟨v, rfl⟩
  | _ => exact .inl ⟨none, rfl⟩

/-- Settles O9: CMD is a CSR whose write is the command of its word. -/
theorem writeToCmdRunsTheCommand : Obligations.WriteToCmdRunsTheCommand := fun w s =>
  (exec_hostWrite_offset .cmd w s).trans (cmdWrite_eq_exec w s)

/-- Settles O25: STATUS is a CSR whose write clears flags and looks at no lock. -/
theorem statusWriteClearsFlags : Obligations.StatusWriteClearsFlags := fun s data =>
  exec_hostWrite_offset .status data s

end Sys2Proof.Machine
end

section
/-! SUPPORT for the proofs. The flags, LAST_ERR and the response at one edge: what the sequencer adds to them, and what the
host's edge leaves of them (R124, R128, R133 to R136). -/

namespace Sys2Proof.Machine

/-! An error as a flag and as a code. -/

theorem errFlag_eq_bitAt (e : ErrCode) : e.flag = bitAt true (15 + e.code) := rfl

theorem toNat_errCode (e : ErrCode) : (BitVec.ofNat 4 e.code).toNat = e.code := by cases e <;> rfl

theorem getLsbD_errFlag (e : ErrCode) (k : Nat) : e.flag.getLsbD k = decide (k = 15 + e.code) := by
  rw [errFlag_eq_bitAt, getLsbD_bitAt true (by cases e <;> decide), Bool.true_and]

theorem or_bitAt_decide (P : Prop) [Decidable P] (f : Word) (n : Nat) :
    (if P then f ||| bitAt true n else f) = f ||| bitAt (decide P) n := by
  by_cases hP : P <;> simp [hP, bitAt]

theorem hostErred_congr {h u : State} (hresp : u.resp = h.resp) : hostErred u = hostErred h := by
  simp only [hostErred, hresp]

theorem hostErred_iff {h : State} : hostErred h = true ↔ ∃ v, h.resp = some { err := true, rdata := v } := by
  unfold hostErred
  cases h.resp with
  | none => simp
  | some r => cases r; simp

/-! The sequencer's part. -/

@[simp] theorem driveOps_resp (s h : State) : (driveOps s h).resp = h.resp := by rw [driveOps_eq]
@[simp] theorem slotClosed_resp (s h : State) : (slotClosed s h).resp = h.resp := by simp [slotClosed_eq]
@[simp] theorem releaseAction_resp (s h : State) : (releaseAction s h).resp = h.resp := by
  unfold releaseAction; split <;> rfl
@[simp] theorem releaseAction_flags (s h : State) : (releaseAction s h).flags = h.flags := by
  unfold releaseAction; split <;> rfl
@[simp] theorem releaseAction_lastErr (s h : State) : (releaseAction s h).lastErr = h.lastErr := by
  unfold releaseAction; split <;> rfl

/-- A cycle on the downstream port raises RB_MISMATCH, bit 25, and no other flag (R102). -/
theorem driveOps_flags {s : State} (hp : s.seq.phase ≠ .idle) (h : State) :
    (driveOps s h).flags = h.flags ||| bitAt (decide (readbackMismatches s)) 25 := by
  have hflag : ErrCode.rbMismatch.flag = bitAt true 25 := rfl
  simp only [driveOps_eq, hflag, ← or_bitAt_decide, readbackMismatches, completes, ne_eq, hp, not_false_eq_true,
    true_and]

theorem driveOps_lastErr {s : State} (hp : s.seq.phase ≠ .idle) (h : State) :
    (driveOps s h).lastErr =
      if readbackMismatches s then (if hostErred h then h.lastErr else 10#4) else h.lastErr := by
  simp only [driveOps_eq, readbackMismatches, completes, ne_eq, hp, not_false_eq_true, true_and]

theorem slotOverruns_iff {s : State} (he : slotEnds s) : slotOverruns s ↔ s.seq.hold < s.seq.hc + 1 :=
  and_iff_right he

/-- A slot's end raises OVERRUN, bit 24, besides, when it is late (R101). -/
theorem slotClosed_flags_of_slotEnds {s : State} (he : slotEnds s) (h : State) :
    (slotClosed s h).flags =
      h.flags ||| bitAt (decide (readbackMismatches s)) 25 ||| bitAt (decide (slotOverruns s)) 24 := by
  have hflag : ErrCode.overrun.flag = bitAt true 24 := rfl
  rw [slotClosed_flags, hflag, or_bitAt_decide, driveOps_flags (by simp [he.1]),
    decide_eq_decide.2 (slotOverruns_iff he)]

theorem slotClosed_lastErr {s : State} (he : slotEnds s) (h : State) :
    (slotClosed s h).lastErr =
      if slotOverruns s then (if hostErred h then (driveOps s h).lastErr else 9#4) else (driveOps s h).lastErr := by
  simp only [slotClosed_eq, hostErred_congr (driveOps_resp s h), slotOverruns_iff he]

theorem SeqEffect.resp_eq {s h u : State} (x : SeqEffect s h u) : u.resp = h.resp := by
  cases x <;> simp

/-- Where an edge takes the flags and LAST_ERR from: the host's edge, the cycle on the downstream port, or the slot's end
with DONE at the frame's. -/
theorem SeqEffect.raised_cases {s h u : State} (x : SeqEffect s h u) :
    (s.seq.phase = .idle ∧ u.flags = h.flags ∧ u.lastErr = h.lastErr) ∨
    (s.seq.phase ≠ .idle ∧ ¬ slotEnds s ∧ u.flags = (driveOps s h).flags ∧ u.lastErr = (driveOps s h).lastErr) ∨
    (slotEnds s ∧ u.flags = (slotClosed s h).flags ||| bitAt (decide (frameEnds s)) 8 ∧
      u.lastErr = (slotClosed s h).lastErr) := by
  cases x with
  | idle hp | release hp => exact .inl ⟨hp, by simp, by simp⟩
  | running hp =>
    rcases hp with hp | hp <;> exact .inr (.inl ⟨by simp [hp], by simp [slotEnds, hp], rfl, rfl⟩)
  | holding hp he => exact .inr (.inl ⟨by simp [hp], he, rfl, rfl⟩)
  | periodSet hp | firstSlot hp => exact .inr (.inl ⟨by simp [hp], by simp [slotEnds, hp], rfl, rfl⟩)
  | nextSlot he hk =>
    have hgoes : ¬ frameEnds s := fun hend => Nat.not_lt.2 hend.2 hk
    exact .inr (.inr ⟨he, by simp [hgoes, bitAt], rfl⟩)
  | frameEnded he =>
    have hdone : doneFlag = bitAt true 8 := rfl
    exact .inr (.inr ⟨he.1, by rw [frameEnd_flags, decide_eq_true he, hdone], rfl⟩)

/-- The sequencer sets three flags and clears none (R135). -/
theorem SeqEffect.flags_eq {s h u : State} (x : SeqEffect s h u) :
    u.flags = h.flags ||| bitAt (decide (readbackMismatches s)) 25 ||| bitAt (decide (slotOverruns s)) 24 |||
      bitAt (decide (frameEnds s)) 8 := by
  rcases x.raised_cases with ⟨hp, hflags, -⟩ | ⟨hp, he, hflags, -⟩ | ⟨he, hflags, -⟩
  · rw [hflags]
    simp [readbackMismatches, completes, slotOverruns, frameEnds, slotEnds, hp, bitAt]
  · rw [hflags, driveOps_flags hp, decide_eq_false fun ho : slotOverruns s => he ho.1,
      decide_eq_false fun hend : frameEnds s => he hend.1]
    simp [bitAt]
  · rw [hflags, slotClosed_flags_of_slotEnds he]

theorem SeqEffect.flag_iff {s h u : State} (x : SeqEffect s h u) (b : Nat) :
    u.flags.getLsbD b = true ↔
      h.flags.getLsbD b = true ∨ (b = 8 ∧ frameEnds s) ∨ (b = 24 ∧ slotOverruns s) ∨
        (b = 25 ∧ readbackMismatches s) := by
  simp only [x.flags_eq, BitVec.getLsbD_or, getLsbD_bitAt, Nat.reduceLT, Bool.or_eq_true, Bool.and_eq_true,
    decide_eq_true_eq]
  simp only [or_assoc, or_left_comm, or_comm, and_comm]

/-- LAST_ERR after the sequencer's part: the host's code, OVERRUN's, RB_MISMATCH's, in this order (R136). -/
theorem SeqEffect.lastErr_eq {s h u : State} (x : SeqEffect s h u) :
    u.lastErr =
      if hostErred h then h.lastErr
      else if slotOverruns s then 9#4
      else if readbackMismatches s then 10#4 else h.lastErr := by
  rcases x.raised_cases with ⟨hp, -, hlast⟩ | ⟨hp, he, -, hlast⟩ | ⟨he, -, hlast⟩
  · rw [hlast]
    simp [readbackMismatches, completes, slotOverruns, slotEnds, hp]
  · rw [hlast, driveOps_lastErr hp, if_neg fun ho : slotOverruns s => he ho.1]
    by_cases herr : hostErred h = true <;> simp [herr]
  · rw [hlast, slotClosed_lastErr he, driveOps_lastErr (by simp [he.1])]
    by_cases herr : hostErred h = true <;> simp [herr]

/-! The host's part. -/

/-- What the edge of the host port does to LAST_ERR and the flags, a write of STATUS apart: nothing, or one error raised
(R124, R133). -/
theorem HostEdge.raises {s h : State} (e : HostEdge s h) :
    (hostErred h = false ∧ h.lastErr = s.lastErr ∧ ((∀ d, ¬ hostWrites s 0x00C#13 d) → h.flags = s.flags)) ∨
    ∃ c : ErrCode, hostErred h = true ∧ h.lastErr = BitVec.ofNat 4 c.code ∧ h.flags = s.flags ||| c.flag := by
  cases e with
  | quiet => exact .inl ⟨rfl, rfl, fun _ => rfl⟩
  | access i _ hf he =>
    cases he with
    | reject c => exact .inr ⟨c, rfl, rfl, rfl⟩
    | clear d hi => exact .inl ⟨rfl, rfl, fun hno => absurd (hf.trans (congrArg some hi)) (hno d)⟩
    | store r d =>
      obtain ⟨-, -, hflags, hlast, -⟩ := storeCsr_keeps r d s
      exact .inl ⟨rfl, hlast, fun _ => hflags⟩
    | released => exact .inl ⟨rfl, by simp, fun _ => by simp⟩
    | _ => exact .inl ⟨rfl, rfl, fun _ => rfl⟩

theorem HostEdge.lastErr_of_accepted {s h : State} (e : HostEdge s h) (hok : hostErred h = false) :
    h.lastErr = s.lastErr := by
  rcases e.raises with ⟨-, hlast, -⟩ | ⟨c, herr, -⟩
  · exact hlast
  · simp [hok] at herr

theorem hostEdge_of_statusWrite {s : State} {d : Word} (hw : hostWrites s 0x00C#13 d) :
    hostEdge s = .next (acceptWrite (clearFlags d s)) :=
  (hostEdge_of_fetchAccess hw).trans (exec_hostWrite_offset .status d s)

theorem getLsbD_clearFlags {b : Nat} (hb : b = 8 ∨ (16 ≤ b ∧ b ≤ 25)) (d : Word) (s : State) :
    (clearFlags d s).flags.getLsbD b = (s.flags.getLsbD b && !d.getLsbD b) := by
  have hlt : b < 32 := by omega
  rw [clearFlags_flags, BitVec.getLsbD_and, BitVec.getLsbD_not, BitVec.getLsbD_and, getLsbD_w1cMask]
  simp only [hb, hlt, decide_true, Bool.true_and, Bool.and_true]

/-- A W1C bit after the host's edge: held and not cleared, or the flag of the access rejected (R128, R133). -/
theorem hostEdge_flag_iff {s h : State} (hh : hostEdge s = .next h) {b : Nat} (hb : b = 8 ∨ (16 ≤ b ∧ b ≤ 25)) :
    h.flags.getLsbD b = true ↔
      (s.flags.getLsbD b = true ∧ ¬ ∃ d, hostWrites s 0x00C#13 d ∧ d.getLsbD b = true) ∨
      (hostErred h = true ∧ b = 15 + h.lastErr.toNat) := by
  by_cases hw : ∃ d, hostWrites s 0x00C#13 d
  · obtain ⟨d, hd⟩ := hw
    cases (hostEdge_of_statusWrite hd).symm.trans hh
    have hcleared : (∃ d', hostWrites s 0x00C#13 d' ∧ d'.getLsbD b = true) ↔ d.getLsbD b = true := by
      simp [hostWrites, hd]
    have hokay : hostErred (acceptWrite (clearFlags d s)) = false := rfl
    rw [acceptWrite_flags, getLsbD_clearFlags hb, hcleared, hokay]
    simp
  · have hkept : ¬ ∃ d, hostWrites s 0x00C#13 d ∧ d.getLsbD b = true := fun ⟨d, hd, _⟩ => hw ⟨d, hd⟩
    rcases (hostEdge_cases hh).raises with ⟨hok, -, hflags⟩ | ⟨c, herr, hlast, hflags⟩
    · simp [hflags (not_exists.1 hw), hkept, hok]
    · rw [hflags, hlast, BitVec.getLsbD_or, getLsbD_errFlag, toNat_errCode]
      simp [hkept, herr]

/-- With a lock the operation that follows a readback is still to come when it completes, so no slot ends there (R98,
R136). -/
theorem Inv.readback_not_last {s : State} (hi : Inv s) (hl : s.mapRegs.lockSup = true) (hend : slotEnds s) :
    ¬ readbackMismatches s := by
  rintro ⟨⟨-, hhead, hack⟩, -⟩
  obtain ⟨hp, hleft, -⟩ := hend
  obtain ⟨rest, hops⟩ := List.head?_eq_some_iff.1 hhead
  rw [opsLeft_of_ack hack, hops, List.tail_cons] at hleft
  obtain ⟨done, hslot⟩ := (opsShape_slot hp).1 hi.ops
  rw [hops, hleft, slotOps, if_pos hl] at hslot
  simpa using List.append_inj_right' hslot rfl

theorem ne_zero_iff_exists_bit (x : Word) : x ≠ 0#32 ↔ ∃ k, x.getLsbD k = true := by
  constructor
  · intro hne
    by_contra hno
    exact hne (BitVec.eq_of_getLsbD_eq fun k _ => by simpa using fun hk => hno ⟨k, hk⟩)
  · rintro ⟨k, hk⟩ rfl
    simp at hk

end Sys2Proof.Machine
end

section
/-! PROOFS of the statements about the flags, LAST_ERR and the interrupt (R135, R136, R141). -/

namespace Sys2Proof.Machine

/-- Settles O45: the sequencer's three flags are set on what the host's edge has left. -/
theorem flagUpdatePerCycle : Obligations.FlagUpdatePerCycle := by
  intro s t hr hstep b hb
  obtain ⟨h, u, hh, -, hu, rfl⟩ := step_edges hr hstep
  have hanswer : hostErred (nextCycle u) = hostErred h := hostErred_congr hu.resp_eq
  have hrejected : (∃ v, (nextCycle u).resp = some { err := true, rdata := v } ∧
      b = 15 + (nextCycle u).lastErr.toNat) ↔
      hostErred h = true ∧ b = 15 + h.lastErr.toNat := by
    rw [exists_and_right, ← hostErred_iff, nextCycle_lastErr, hanswer]
    exact and_congr_right fun herr => by rw [hu.lastErr_eq, if_pos herr]
  rw [nextCycle_flags, hu.flag_iff, hostEdge_flag_iff hh hb, hrejected]
  simp only [or_assoc, or_left_comm, or_comm]

/-- Settles O46: the order is `SeqEffect.lastErr_eq`; with a lock a readback is never a slot's last operation. -/
theorem lastErrPriority : Obligations.LastErrPriority := by
  intro s t h hr hh hstep
  obtain ⟨h', u, hh', he, hu, rfl⟩ := step_edges hr hstep
  cases hh.symm.trans hh'
  have hlast := hu.lastErr_eq
  rw [nextCycle_lastErr, hlast]
  refine ⟨fun herr => if_pos herr, fun hok hover => ?_, fun hok hover hmis => ?_, fun hok hover hmis => ?_,
    fun hi hl ⟨hover, hmis⟩ => hi.readback_not_last hl hover.1 hmis⟩
  · simp only [hok, if_pos hover, Bool.false_eq_true, if_false]
  · simp only [hok, if_neg hover, if_pos hmis, Bool.false_eq_true, if_false]
  · simp only [hok, if_neg hover, if_neg hmis, Bool.false_eq_true, if_false, he.lastErr_of_accepted hok]

/-- Settles O47: the interrupt is raised by a bit that is set in the flags, in IRQ_EN and in the W1C mask. -/
theorem irqIsTheEnabledFlags : Obligations.IrqIsTheEnabledFlags := by
  intro s
  rw [State.irq, decide_eq_true_eq, ne_zero_iff_exists_bit]
  simp only [BitVec.getLsbD_and, getLsbD_w1cMask, Bool.and_eq_true, decide_eq_true_eq]
  constructor
  · rintro ⟨k, ⟨hf, hq⟩, rfl | ⟨hlo, hhi⟩⟩
    · exact .inl ⟨hf, hq⟩
    · exact .inr ⟨k, hlo, hhi, hf, hq⟩
  · rintro (hdone | ⟨k, hlo, hhi, herr⟩)
    · exact ⟨8, hdone, .inl rfl⟩
    · exact ⟨k, herr, .inr ⟨hlo, hhi⟩⟩

end Sys2Proof.Machine
end

section
/-! SUPPORT for the proofs. The three formats field by field (R69 to R72) and byte by byte (log 11): each field of a word is
read back, and the bytes of a word are the only ones that decode to it. -/

namespace Sys2Proof

/-! The fields of an access (R71). -/

/-- The three fields of an access do not overlap (R71). -/
theorem toNat_accessWord (write : Bool) (off : Offset) (data : Word) :
    (accessWord write off data).toNat = write.toNat * 2 ^ 45 + off.toNat * 2 ^ 32 + data.toNat := by
  have hoff := off.isLt
  have hdata := data.isLt
  have hbit : (if write then 2 ^ 45 else 0) = write.toNat * 2 ^ 45 := by cases write <;> rfl
  have hwrite := write.toNat_lt
  rw [accessWord, BitVec.toNat_ofNat, hbit, Nat.mod_eq_of_lt (by omega)]

theorem toNat_accWrite (acc : AccessWord) : (accWrite acc).toNat = acc.toNat / 2 ^ 45 := by
  have hacc := acc.isLt
  rw [accWrite, BitVec.getLsbD, Nat.toNat_testBit, Nat.mod_eq_of_lt (by omega)]

theorem toNat_accAddr (acc : AccessWord) : (accAddr acc).toNat = acc.toNat / 2 ^ 32 % 2 ^ 13 := by
  rw [accAddr, BitVec.extractLsb'_toNat, Nat.shiftRight_eq_div_pow]

theorem toNat_accData (acc : AccessWord) : (accData acc).toNat = acc.toNat % 2 ^ 32 := by
  rw [accData, BitVec.extractLsb'_toNat, Nat.shiftRight_zero]

@[simp] theorem accWrite_accessWord (write : Bool) (off : Offset) (data : Word) :
    accWrite (accessWord write off data) = write := by
  have hoff := off.isLt
  have hdata := data.isLt
  rw [Bool.eq_iff_iff, ← Bool.toNat_eq_one, ← Bool.toNat_eq_one, toNat_accWrite, toNat_accessWord]
  omega

@[simp] theorem accAddr_accessWord (write : Bool) (off : Offset) (data : Word) :
    accAddr (accessWord write off data) = off := by
  have hoff := off.isLt
  have hdata := data.isLt
  apply BitVec.eq_of_toNat_eq
  rw [toNat_accAddr, toNat_accessWord]
  omega

@[simp] theorem accData_accessWord (write : Bool) (off : Offset) (data : Word) :
    accData (accessWord write off data) = data := by
  have hdata := data.isLt
  apply BitVec.eq_of_toNat_eq
  rw [toNat_accData, toNat_accessWord]
  omega

/-- The three fields are all an access holds (R71). -/
theorem accessWord_fields (acc : AccessWord) : accessWord (accWrite acc) (accAddr acc) (accData acc) = acc := by
  apply BitVec.eq_of_toNat_eq
  rw [toNat_accessWord, toNat_accWrite, toNat_accAddr, toNat_accData]
  omega

/-! Words and instructions (R70 to R72). -/

/-- What an access decodes to, by `h_write` (R71). -/
theorem decodeAccess_cases (acc : AccessWord) :
    (∃ off data, acc = accessWord true off data ∧ decodeAccess acc = .hostWrite off data) ∨
    (∃ off data, acc = accessWord false off data ∧ decodeAccess acc = .hostRead off) := by
  have hfields := (accessWord_fields acc).symm
  unfold decodeAccess
  cases hw : accWrite acc with
  | true => exact .inl ⟨_, _, hw ▸ hfields, rfl⟩
  | false => exact .inr ⟨_, _, hw ▸ hfields, rfl⟩

/-- The encoder finds the code an instruction was decoded from (R72). -/
theorem encode_decodeSymbol : ∀ code : SymCode, encode (decodeSymbol code) = .symbol code := by decide

/-- A well-formed instruction is read back from its word (R70 to R72). -/
theorem decodeCode_encode {i : Instr} (hi : i.wellFormed = true) : decodeCode (encode i) = i := by
  cases i with
  | cmdReserved word => exact decodeCmd_of_six_le (of_decide_eq_true hi)
  | hostRead off => simp [encode, decodeCode, decodeAccess]
  | hostWrite off data => simp [encode, decodeCode, decodeAccess]
  | _ => rfl

/-- Every word decodes to a well-formed instruction: only words from 6 on become CMD_RESERVED (R70, R74). -/
theorem wellFormed_decodeCode (c : Code) : (decodeCode c).wellFormed = true := by
  cases c with
  | symbol code => revert code; decide
  | cmd word =>
    obtain rfl | rfl | rfl | rfl | rfl | rfl | hw := opcode_or_six_le word
    case inr.inr.inr.inr.inr.inr => simpa [decodeCode, decodeCmd_of_six_le hw, Instr.wellFormed] using hw
    all_goals rfl
  | access acc =>
    rw [decodeCode]
    obtain ⟨off, data, -, h⟩ | ⟨off, data, -, h⟩ := decodeAccess_cases acc
    · rw [h, Instr.wellFormed]
    · rw [h, Instr.wellFormed]

/-- A word is found again from its instruction, unless it is a host read, whose `h_wdata` alone is lost (R71). -/
theorem encode_decodeCode (c : Code) :
    encode (decodeCode c) = c ∨
    ∃ off data, c = .access (accessWord false off data) ∧ decodeCode c = .hostRead off := by
  cases c with
  | symbol code => exact .inl (encode_decodeSymbol code)
  | cmd word => exact .inl (encode_decodeCmd word)
  | access acc =>
    obtain ⟨off, data, rfl, h⟩ | ⟨off, data, rfl, h⟩ := decodeAccess_cases acc
    · exact .inl (by rw [decodeCode, h, encode])
    · exact .inr ⟨off, data, rfl, h⟩

/-! Bytes (log 11). -/

theorem natOfBytes_lt (bs : List Byte) : natOfBytes bs < 256 ^ bs.length := by
  induction bs with
  | nil => exact Nat.one_pos
  | cons b bs ih =>
    have hb := b.isLt
    rw [natOfBytes, List.length_cons, Nat.pow_succ]
    omega

theorem bytesOfNat_natOfBytes (bs : List Byte) : bytesOfNat bs.length (natOfBytes bs) = bs := by
  induction bs with
  | nil => rfl
  | cons b bs ih =>
    have hb := b.isLt
    have hlow : BitVec.ofNat 8 (natOfBytes (b :: bs)) = b := by
      apply BitVec.eq_of_toNat_eq
      rw [BitVec.toNat_ofNat, natOfBytes]
      omega
    have hhigh : natOfBytes (b :: bs) / 256 = natOfBytes bs := by
      rw [natOfBytes]
      omega
    rw [List.length_cons, bytesOfNat, hlow, hhigh, ih]

/-- The bytes above the low `j` are those of the quotient. -/
theorem drop_bytesOfNat (j k n : Nat) : (bytesOfNat (j + k) n).drop j = bytesOfNat k (n / 256 ^ j) := by
  induction j generalizing n with
  | zero => simp
  | succ j ih =>
    rw [Nat.succ_add, bytesOfNat, List.drop_succ_cons, ih, Nat.div_div_eq_div_mul, Nat.pow_succ']

/-- Bytes that are as many as a format has and set no bit above its width are the bytes of their word. -/
theorem codeBytes_of_decodeCodeBytes {bs : List Byte} {c : Code} (h : decodeCodeBytes bs = .ok c) : codeBytes c = bs := by
  have hbytes := bytesOfNat_natOfBytes bs
  have hlt := natOfBytes_lt bs
  have hword {w : Nat} (hw : natOfBytes bs < 2 ^ w) : (BitVec.ofNat w (natOfBytes bs)).toNat = natOfBytes bs := by
    rw [BitVec.toNat_ofNat, Nat.mod_eq_of_lt hw]
  simp only [decodeCodeBytes] at h
  split at h
  case h_1 hlen =>
    split at h <;> cases h
    rwa [codeBytes, hword ‹_›, ← hlen]
  case h_2 hlen =>
    cases h
    rw [hlen] at hlt
    rwa [codeBytes, hword hlt, ← hlen]
  case h_3 hlen =>
    split at h <;> cases h
    rwa [codeBytes, hword ‹_›, ← hlen]
  case h_4 => cases h

/-- The bytes of an access above `h_wdata` hold `h_write` and `h_addr` alone (R71). -/
theorem drop_codeBytes_accessWord (write : Bool) (off : Offset) (data : Word) :
    (codeBytes (.access (accessWord write off data))).drop 4 = bytesOfNat 2 (write.toNat * 2 ^ 13 + off.toNat) := by
  have hdata := data.isLt
  have hdiv : (accessWord write off data).toNat / 256 ^ 4 = write.toNat * 2 ^ 13 + off.toNat := by
    rw [toNat_accessWord]
    omega
  rw [codeBytes, drop_bytesOfNat 4 2, hdiv]

/-- Bytes decode to an instruction when they are the bytes of a word that stands for it. -/
theorem decode_eq_ok {bs : List Byte} {i : Instr} (h : decode bs = .ok i) : ∃ c, codeBytes c = bs ∧ decodeCode c = i := by
  unfold decode at h
  split at h <;> cases h
  exact ⟨_, codeBytes_of_decodeCodeBytes ‹_›, rfl⟩

/-- The bytes of a word decode to the instruction it stands for. -/
theorem decode_codeBytes (c : Code) : decode (codeBytes c) = .ok (decodeCode c) := by
  rw [decode, Laws.EncodeWidth.decodeCodeBytes_codeBytes]

end Sys2Proof
end

section
/-! PROOFS of the statements about the round trip between instructions and bytes (R69 to R74, log 11). -/

namespace Sys2Proof.Machine

/-- Settles O2: the bytes give the word back, and the word the instruction. -/
theorem decodeOfEncodeIsTheInstruction : Obligations.DecodeOfEncodeIsTheInstruction := by
  intro i hi
  rw [encodeBytes, decode_codeBytes, decodeCode_encode hi]

/-- Settles O3: the bytes are those of a word, and of a word only the `h_wdata` of a read is lost. -/
theorem encodeOfDecodeIsTheBytes : Obligations.EncodeOfDecodeIsTheBytes := by
  intro bs i h
  obtain ⟨c, rfl, rfl⟩ := decode_eq_ok h
  refine ⟨wellFormed_decodeCode c, ?_⟩
  obtain hc | ⟨off, data, rfl, hread⟩ := encode_decodeCode c
  · rw [encodeBytes, hc]
    exact ⟨fun _ => rfl, fun _ _ => rfl⟩
  · refine ⟨fun hne => absurd hread (hne off), fun _ _ => ?_⟩
    rw [encodeBytes, hread, encode, drop_codeBytes_accessWord, drop_codeBytes_accessWord]

end Sys2Proof.Machine
end

section
/-! PROOFS of the statement about an edge with `rst` = 1 (R149). -/

namespace Sys2Proof.Machine

theorem step_of_rst {s : State} (hr : (hostNow s).rst = true) :
    step s = .next (nextCycle (rstEdge (hostNow s).acc s)) := by
  rw [step, if_pos hr]

/-- While `rst` = 1 no downstream transaction is driven (R149). -/
theorem dsPort_of_rst {s : State} (hr : (hostNow s).rst = true) : dsPort s = none := by
  rw [dsPort, if_pos hr]

/-- No CSR is read from what the reset edge keeps (R149). -/
theorem readCsr_rstEdge (acc : Option AccessWord) (s : State) (r : Csr) :
    readCsr (rstEdge acc s) r = readCsr (State.resetWith s.params) r := by
  cases r <;> rfl

theorem readCsr_nextCycle (s : State) (r : Csr) : readCsr (nextCycle s) r = readCsr s r := by
  cases r <;> rfl

/-- Settles O6: the reset edge is the reset state of the build but for pixel RAM and the record of the outside, so O5's
values are its own. -/
theorem rstResetsAllButPixelRam : Obligations.RstResetsAllButPixelRam := by
  intro s hr
  obtain ⟨hcsr, hid, hparam, hseq, hirq, -, -⟩ := resetStateHoldsTheResetValues s.params
  refine ⟨dsPort_of_rst hr, _, step_of_rst hr, ?_⟩
  simp only [readCsr_nextCycle, readCsr_rstEdge]
  refine ⟨hcsr, hid, hparam, hseq, rfl, rfl, hirq, readByte_congr rfl, fun a ha => ?_, rfl, rfl⟩
  rw [nextCycle_resp, ha]
  rfl

end Sys2Proof.Machine
end
